-- ==== Sys2Proof/Word.lean ====
section
/-! DEFINITION. The word types of the engine: the 8-bit byte, the 32-bit event word and the timestamp
field. Everything is unsigned (00_scope.md R8). -/

namespace Sys2Proof

/-- An 8-bit value: a data byte, a BitInterval, a log entry, a register number (R8, R50). -/
abbrev Byte := BitVec 8

/-- One event word, 32 bits (30_encoding.md R71). -/
abbrev Word := BitVec 32

/-- The TS field of an EDGE word and the register `time0`, as wide as the widest timebase, 24 bits
(30_encoding.md R72, 10_state.md R27). -/
abbrev Stamp := BitVec 24

end Sys2Proof
end

