-- ==== Sys2Proof/Config.lean ====
section
/-! DEFINITION. The parameters the spec leaves open and a model takes as named arguments
(00_scope.md R7). The fixed constants of R6 stand in Machine/Units.lean. -/

namespace Sys2Proof

/-- The order of the data bits on the wire, shared by transmit and receive (R7, D9). -/
inductive BitOrder where
  | lsbFirst
  | msbFirst
  deriving DecidableEq, Repr

/-- The named parameters of R7. A configuration is fixed for a run (10_state.md R47). Their legal
ranges are `Config.wf` (D41). -/
structure Config where
  /-- `TIMEBASE_WIDTH`, W. -/
  width : Nat
  /-- `CLOCK_SHIFT`. -/
  clockShift : Nat
  /-- `BIT_ORDER`. -/
  bitOrder : BitOrder
  /-- `END_MARKER`. -/
  endMarker : Option Byte
  /-- `PREAMBLE_COUNT`. -/
  preambleCount : Byte
  /-- `TRAILER_COUNT`. -/
  trailerCount : Byte
  deriving DecidableEq, Repr

/-- The setting every vector of 95_test_vectors.md uses: the defaults of R7, and `CLOCK_SHIFT = 0`.
DESIGN CHOICE (log 2), unsafe where a claim rests on it: the spec leaves `CLOCK_SHIFT` OPEN (D3) and
stands behind no value. Claims quantify over every configuration. -/
def Config.vectors : Config where
  width := 16
  clockShift := 0
  bitOrder := .lsbFirst
  endMarker := some 0x35
  preambleCount := 4
  trailerCount := 2

end Sys2Proof
end

