-- ==== Sys2Proof/Machine/State.lean ====
section
/-! DEFINITION. The state of the engine (10_state.md), the reasons a step can stop, and the state after
RESET. -/

namespace Sys2Proof.Machine

/-- ReceiveState (R22). The codes stand in `RxState.code`. -/
inductive RxState where
  | idle
  | high
  | low
  | checkSync1
  | waitStop
  /-- Transient: never held between events (R23). -/
  | frameStart
  | gathering
  /-- The source's `Done`/`LostSync` (R22). -/
  | done
  deriving DecidableEq, Repr

/-- Why the last frame ended (R24). Codes 6 and 7 are reserved and never written, so they have no
constructor (I16). -/
inductive EndCause where
  | none
  | endMarker
  | lostTooLong
  | lostPolarity
  | lostOverflow
  | lostOverrun
  deriving DecidableEq, Repr

/-- TransmitState (R36). Codes 6 and 7 are reserved and never written (I16). -/
inductive TxState where
  | idle
  | preamble
  | sync
  | message
  | training
  | done
  deriving DecidableEq, Repr

/-- `fault_code` (R41). -/
inductive FaultCode where
  | none
  | illegalEvent
  | exclusion
  | unmappedReg
  deriving DecidableEq, Repr

/-- One of the two edge buffers: the value of the selector `active` (R29, R31). -/
inductive Buf where
  | b0
  | b1
  deriving DecidableEq, Repr

/-- An output event of the upward stream (R42). -/
inductive UpEvent where
  | frameStart
  | data (b : Byte)
  | frameEnd (c : EndCause)
  | txDone
  | reg (n v : Byte)
  deriving DecidableEq, Repr

/-- The edge log as the cells that are not 0, addresses rising (R50). Entry (b, i) stands at
`logAddr b i` (Machine/Ops.lean). -/
abbrev Memory := List Host.Cell

/-- The whole state of the engine (10_state.md), with two fields of the model's own. -/
structure State where
  /-- The MODEL's own: the parameters of R7, which no step writes (R47; log 1). -/
  cfg : Config
  /-- The MODEL's own: the event words not yet delivered, the next one first (R70; log 3). -/
  trace : List Word
  /-- `rx_armed` (R25). -/
  rxArmed : Bool
  /-- `rxs` (R22). -/
  rxs : RxState
  /-- `end_cause` (R24). -/
  endCause : EndCause
  /-- `rx_done` (R26). -/
  rxDone : Bool
  /-- `time0` (R27): a W-bit value, zero-extended to 24 bits (log 5). -/
  time0 : Stamp
  /-- `preamble_cnt` (R28). -/
  preambleCnt : BitVec 7
  /-- `active` (R29). -/
  active : Buf
  /-- `count[0]` (R30). -/
  count0 : BitVec 5
  /-- `count[1]` (R30). -/
  count1 : BitVec 5
  /-- `log[b][i]` (R31). -/
  log : Memory
  /-- `decode_pending` (R32). -/
  decodePending : Bool
  /-- `end_seen` (R33). -/
  endSeen : Bool
  /-- `last_byte` (R34). -/
  lastByte : Byte
  /-- `tx_armed` (R35). -/
  txArmed : Bool
  /-- `txs` (R36). -/
  txs : TxState
  /-- `tx_cur` (R37). -/
  txCur : Byte
  /-- `tx_bits_left` (R37). -/
  txBitsLeft : BitVec 4
  /-- `tx_rep` (R37). -/
  txRep : Byte
  /-- `tx_pin` (R38). -/
  txPin : Bool
  /-- `tx_done` (R39). -/
  txDone : Bool
  /-- `fault` (R41): the ENGINE's fault flag, an ordinary part of the state. -/
  fault : Bool
  /-- `fault_code` (R41). -/
  faultCode : FaultCode
  /-- `up` (R42): the upward event stream, oldest first. -/
  up : List UpEvent
  deriving DecidableEq, Repr

/-- The reasons the MODEL stops. None is an engine fault (R234), which is a next state. Each stands for
a state that no rule produces (I16 to I18; log 7) and is safe: no run from RESET meets one. -/
inductive Fault where
  /-- An EDGE is processed in `Done` with receive armed. Raised by EDGE. R127: "The rules give these
  two cases no behaviour. A model that finds them reachable has a bug and should fault". Safe. -/
  | edgeInDone
  /-- An EDGE is processed in the transient `FrameStart`. Raised by EDGE (R127). Safe. -/
  | edgeInFrameStart
  /-- `count[b]` is above 24, so a rule would form a log index outside 0..23 (I18, R61). Raised by EDGE
  on an append and by DECODE. Safe. -/
  | countAboveCapacity
  /-- `tx_bits_left` is above 10, so no bit of a frame is due (I18). Raised by TX_TICK. Safe. -/
  | bitsLeftAboveTen
  deriving DecidableEq, Repr

/-- The reasons the model gives no meaning. -/
inductive Refusal where
  /-- The instruction has no meaning yet. Raised by an arm of `exec` only; no arm raises it. Safe. -/
  | notModelled (mnemonic : String)
  deriving DecidableEq, Repr

/-- Every field of R44 at its value after RESET, under parameters `c`, with nothing to deliver and
nothing emitted. -/
def State.resetWith (c : Config) : State where
  cfg := c
  trace := []
  rxArmed := false
  rxs := .idle
  endCause := .none
  rxDone := false
  time0 := 0
  preambleCnt := 0
  active := .b0
  count0 := 0
  count1 := 0
  log := []
  decodePending := false
  endSeen := false
  lastByte := 0
  txArmed := false
  txs := .idle
  txCur := 0
  txBitsLeft := 0
  txRep := 0
  txPin := true
  txDone := false
  fault := false
  faultCode := .none
  up := []

/-- The machine right after RESET, which is also power-on (R44, R260, R261). The values of the spec's
fields are R44's. The parameters are `Config.vectors` (log 2) and no event is waiting (log 3). -/
def State.reset : State := State.resetWith Config.vectors

end Sys2Proof.Machine
end

