-- ==== Sys2Proof/Machine/Units.lean ====
section
/-! DEFINITION. The fixed constants of 00_scope.md R6, in units of 1/13 bit period, and the two periods
derived from them. -/

namespace Sys2Proof.Machine

/-- `BIT`: the nominal bit period. -/
abbrev bitUnits : Nat := 13

/-- `TOL`. -/
abbrev tol : Nat := 4

/-- `BAUD`. No rule of the machine reads it (R274). -/
abbrev baud : Nat := 38400

/-- `SYNC0_MIN`: 9 bit periods. -/
abbrev sync0Min : Nat := 117

/-- `SYNC1_MIN`: 9 bit periods. -/
abbrev sync1Min : Nat := 117

/-- `SYNC1_MAX`: 10 bit periods, inclusive. -/
abbrev sync1Max : Nat := 130

/-- `BYTE_MIN`: 10 bit periods, inclusive. -/
abbrev byteMin : Nat := 130

/-- `BYTE_MAX`: the largest integer below 14.5 bit periods, inclusive. -/
abbrev byteMax : Nat := 188

/-- `MAJ_MIN`: more than half of a bit period. -/
abbrev majMin : Nat := 7

/-- `EDGE_CAP`: entries in one edge buffer. -/
abbrev edgeCap : Nat := 24

/-- `PREAMBLE_CAP`. -/
abbrev preambleCap : Nat := 64

/-- `TRAINING_BYTE`. -/
def trainingByte : Byte := 0xAA

/-- `SYNC_BYTE0`. -/
def syncByte0 : Byte := 0xFF

/-- `SYNC_BYTE1`. -/
def syncByte1 : Byte := 0x00

/-- `SLOTS`: slots the decoder closes, of the 10 of a frame. -/
abbrev slots : Nat := 9

/-- The bits of one frame: start bit, 8 data bits, stop bit (44_transmit.md R186). -/
abbrev frameLen : Nat := 10

/-- The transmit tick period in timebase ticks that the receive thresholds need, `BIT << CLOCK_SHIFT`
(70_reset_and_hazards.md R272). A duty of the host: no step reads it. -/
def tickPeriod (c : Config) : Nat := bitUnits <<< c.clockShift

/-- The clamp at 255 is reached before the counter aliases: `2^W > 255 << CLOCK_SHIFT`
(70_reset_and_hazards.md R265). -/
def clampBeforeAlias (c : Config) : Bool := decide (255 <<< c.clockShift < 2 ^ c.width)

end Sys2Proof.Machine
end

