-- ==== Sys2Proof/Machine/Ops.lean ====
section
/-! DEFINITION. The shared operations: the edge log (20_memory.md), the upward stream, raising an engine
fault (60_exceptions.md R236), ending a frame (42_byte_gatherer.md R150) and the hand-off (R151). Every
conditional stands inside a field, so that the other fields are plainly the old ones. -/

namespace Sys2Proof.Machine

/-! ## The memory: cells in canonical form -/

/-- What an entry that is not listed reads as: its RESET value, 0 (10_state.md R44; log 6). -/
abbrev unlisted : Byte := 0

/-- The cell at address `a`. -/
def Memory.readCell : Memory → Nat → Byte
  | [], _ => unlisted
  | (k, v) :: m, a => if k = a then v else Memory.readCell m a

/-- Drop the cell at address `a`. -/
def Memory.dropCell (m : Memory) (a : Nat) : Memory := m.filter (fun p => decide (p.1 ≠ a))

/-- Put a cell before the first one with a higher address. -/
def Memory.placeCell : Memory → Nat → Byte → Memory
  | [], a, v => [(a, v)]
  | p :: m, a, v => if a < p.1 then (a, v) :: p :: m else p :: Memory.placeCell m a v

/-- Write one cell, keeping the canonical form: a cell that would read as `unlisted` is not listed. -/
def Memory.writeCell (m : Memory) (a : Nat) (v : Byte) : Memory :=
  if v = unlisted then m.dropCell a else Memory.placeCell (m.dropCell a) a v

/-- The canonical form: addresses strictly rising, no cell equal to what an unlisted one reads as, and
no address outside the log's 48 entries (R50). -/
def Memory.wf (m : Memory) : Bool :=
  decide (m.Pairwise (fun p q => p.1 < q.1)) &&
    m.all (fun p => decide (p.2 ≠ unlisted) && decide (p.1 < 2 * edgeCap))

/-! ## The edge log (R50) -/

/-- `b` as a number. -/
def Buf.toNat : Buf → Nat
  | .b0 => 0
  | .b1 => 1

/-- `b xor 1`. -/
def Buf.flip : Buf → Buf
  | .b0 => .b1
  | .b1 => .b0

/-- Where entry (b, i) stands in the memory (log 6). -/
def logAddr (b : Buf) (i : Nat) : Nat := edgeCap * b.toNat + i

/-- `MemRead(b, i)`, for i in 0..23 (R9, R50). No entry exists at any other index (R61). -/
def logRead (m : Memory) (b : Buf) (i : Nat) : Option Byte :=
  if i < edgeCap then some (m.readCell (logAddr b i)) else none

/-- `MemWrite(b, i, v)`, for i in 0..23 (R9, R50). -/
def logWrite (m : Memory) (b : Buf) (i : Nat) (v : Byte) : Option Memory :=
  if i < edgeCap then some (m.writeCell (logAddr b i) v) else none

/-- Entries 0 .. n-1 of buffer b; none where an index would fall outside 0..23 (R53, R61). -/
def logEntries (m : Memory) (b : Buf) (n : Nat) : Option (List Byte) :=
  if n ≤ edgeCap then some ((List.range n).map (fun i => m.readCell (logAddr b i))) else none

/-! ## The two counts (R30) -/

/-- `count[b]`. -/
def State.count (s : State) : Buf → BitVec 5
  | .b0 => s.count0
  | .b1 => s.count1

/-- `count[b] <- v`. -/
def State.setCount (s : State) (b : Buf) (v : BitVec 5) : State :=
  { s with
    count0 := if b = .b0 then v else s.count0
    count1 := if b = .b1 then v else s.count1 }

/-- The completed buffer that DECODER may read, `active xor 1` (R29). -/
def State.completed (s : State) : Buf := s.active.flip

/-! ## Output, fault, frame end, hand-off -/

/-- `emit(E)` (R9, R42). -/
def State.emit (s : State) (e : UpEvent) : State := { s with up := s.up ++ [e] }

/-- `raise Fault(code)`: the first fault is kept, and nothing else changes (R236). This is the engine's
one way of taking an exception. It saves nothing and goes nowhere (R240); RESET alone clears it. -/
def State.raiseFault (s : State) (code : FaultCode) : State :=
  { s with
    fault := true
    faultCode := if s.fault then s.faultCode else code }

/-- `Terminate(c)`: the single frame-end step (R150). -/
def State.terminate (s : State) (c : EndCause) : State :=
  { s with
    rxs := .done
    endCause := c
    rxDone := true
    rxArmed := false
    decodePending := false
    up := s.up ++ [.frameEnd c] }

/-- `Append(iv)`: one entry at `log[active][count[active]]` (R149). No result where the index would fall
outside the buffer. -/
def State.append (s : State) (iv : Byte) : Option State :=
  (logWrite s.log s.active (s.count s.active).toNat iv).map fun m =>
    { s.setCount s.active (s.count s.active + 1) with log := m }

/-- `Handoff(now)`: toggle the buffer, empty the new one, request the decode, re-latch (R151, R54). -/
def State.handoff (s : State) (now : Stamp) : State :=
  { s.setCount s.active.flip 0 with
    active := s.active.flip
    decodePending := true
    time0 := now }

end Sys2Proof.Machine
end

