-- ==== Sys2Proof/Machine/Flags.lean ====
section
/-! DEFINITION. Flags and counters computed from an interval or a byte: the preamble counter
(40_edge_capture.md R105), the class of a gathering edge (42_byte_gatherer.md R141) and the end-marker
flag (43_decoder.md R168). -/

namespace Sys2Proof.Machine

/-- The states whose edges PreambleCounter counts (R105). -/
def RxState.countsPreamble : RxState → Bool
  | .high | .low | .checkSync1 | .waitStop => true
  | .idle | .frameStart | .gathering | .done => false

/-- PreambleCounter after an edge with interval `iv` (R105). -/
def preambleNext (r : RxState) (iv : Byte) (cnt : BitVec 7) : BitVec 7 :=
  if r.countsPreamble then
    if bitUnits - tol ≤ iv.toNat ∧ iv.toNat ≤ bitUnits + tol then
      BitVec.ofNat 7 (min (cnt.toNat + 1) preambleCap)
    else 0
  else cnt

/-- `PreambleUpdate(iv)`, from `rxs` as it stands (R105). -/
def State.preambleUpdate (s : State) (iv : Byte) : State :=
  { s with preambleCnt := preambleNext s.rxs iv s.preambleCnt }

/-- The interval is above `BYTE_MAX` (R145). -/
def tooLong (iv : Byte) : Bool := decide (byteMax < iv.toNat)

/-- The interval is at or above `BYTE_MIN` and the edge is rising (R146; R145 is checked first). -/
def wrongPolarity (l : Bool) (iv : Byte) : Bool := decide (byteMin ≤ iv.toNat) && l

/-- A falling edge at or above `BYTE_MIN` (R143; R145 is checked first). -/
def isBoundary (l : Bool) (iv : Byte) : Bool := decide (byteMin ≤ iv.toNat) && !l

/-- `end_seen` after the commit of `byte` (R168). -/
def endSeenNext (c : Config) (byte : Byte) (endSeen : Bool) : Bool :=
  if c.endMarker = some byte then true else endSeen

end Sys2Proof.Machine
end

