-- ==== Sys2Proof/Machine/Operands.lean ====
section
/-! DEFINITION. The values the rules compute from operands: the timestamp and the clamped interval
(40_edge_capture.md R100, R101), and the order of data bits on the wire (43_decoder.md R166,
44_transmit.md R187). -/

namespace Sys2Proof.Machine

/-- `TS[W-1:0]`, zero-extended (R72, R100). -/
def sampleNow (c : Config) (ts : Stamp) : Stamp := BitVec.ofNat 24 (ts.toNat % 2 ^ c.width)

/-- `sat8(v)`: saturation to 8 bits, never a wrap (R8). -/
def sat8 (v : Nat) : Byte := BitVec.ofNat 8 (min v 255)

/-- The modular difference of two timebase values, `(now - time0) mod 2^W` (R101). -/
def stampDelta (c : Config) (time0 now : Stamp) : Nat := (now - time0).toNat % 2 ^ c.width

/-- `Interval(now)`: the BitInterval of an edge (R101). -/
def interval (c : Config) (time0 now : Stamp) : Byte := sat8 (stampDelta c time0 now >>> c.clockShift)

/-- `DataBit(x, j)`: the j-th data bit on the wire, j in 0..7 (R187). -/
def dataBit (c : Config) (x : Byte) (j : Nat) : Bool :=
  match c.bitOrder with
  | .lsbFirst => x.getLsbD j
  | .msbFirst => x.getLsbD (7 - j)

/-- `Shift(out, bit)`: one decoded bit into the output byte (R166). -/
def shiftIn (c : Config) (out : Byte) (bit : Bool) : Byte :=
  match c.bitOrder with
  | .lsbFirst => (out >>> 1) ||| (BitVec.ofBool bit ++ 0#7)
  | .msbFirst => (out <<< 1) ||| (0#7 ++ BitVec.ofBool bit)

/-- Bit k = 0..9 of the frame that carries `x`: start bit low, 8 data bits, stop bit high (R186). -/
def frameBit (c : Config) (x : Byte) (k : Nat) : Bool :=
  if k = 0 then false else if k = 9 then true else dataBit c x (k - 1)

end Sys2Proof.Machine
end

