-- ==== Sys2Proof/Machine/ClockRecovery.lean ====
section
/-! DEFINITION. The clock-recovery decoder: the DECODE event (43_decoder.md). -/

namespace Sys2Proof.Machine

/-- `Vote(high)` (R164). -/
def vote (high : Nat) : Bool := decide (majMin ≤ high)

/-- The variables of the interval walk (R161). `bound` is `BIT * (slot + 1)`. -/
structure Walk where
  pos : Nat
  lvl : Bool
  slot : Nat
  bound : Nat
  high : Nat
  out : Byte
  deriving DecidableEq, Repr

/-- The walk before the first entry: level 0, the start bit's slot (R161, R162). -/
def Walk.start : Walk where
  pos := 0
  lvl := false
  slot := 0
  bound := bitUnits
  high := 0
  out := 0

/-- The segment reaches the slot's end: vote, and go to the next slot. Slot 0 is discarded (R161). -/
def Walk.closeSlot (c : Config) (k : Walk) : Walk :=
  let high := if k.lvl then k.high + (k.bound - k.pos) else k.high
  { k with
    out := if 1 ≤ k.slot then shiftIn c k.out (vote high) else k.out
    pos := k.bound
    slot := k.slot + 1
    bound := k.bound + bitUnits
    high := 0 }

/-- The inner loop of R161: close every slot that ends at or before `t`. It runs at most 9 times in all,
so `fuel` is at most `slots`. -/
def Walk.closeSlots (c : Config) (t : Nat) : Nat → Walk → Walk
  | 0, k => k
  | fuel + 1, k =>
    if k.slot < slots ∧ k.bound ≤ t then Walk.closeSlots c t fuel (k.closeSlot c) else k

/-- The part of the segment inside the slot (R161). -/
def Walk.partialSlot (t : Nat) (k : Walk) : Walk :=
  if k.slot < slots ∧ k.pos < t then
    { k with high := if k.lvl then k.high + (t - k.pos) else k.high, pos := t }
  else k

/-- One turn of the outer loop: the segment up to `t`, and then the level change (R161). -/
def Walk.segment (c : Config) (t : Nat) (k : Walk) : Walk :=
  let k := Walk.partialSlot t (Walk.closeSlots c t slots k)
  { k with lvl := !k.lvl }

/-- Past the last entry the level holds: the sentinel (R161, D42). -/
abbrev sentinel : Nat := 255

/-- The outer loop over the entries, then the sentinel, which closes every slot that is left (R161). -/
def Walk.run (c : Config) : List Byte → Walk → Walk
  | [], k => if k.slot < slots then k.segment c sentinel else k
  | e :: es, k => if k.slot < slots then Walk.run c es (k.segment c e.toNat) else k

/-- `DecodeBuffer`, the interval walk (R161). -/
def decodeBuffer (c : Config) (es : List Byte) : Byte := (Walk.run c es Walk.start).out

/-! ## The closed form (R167) -/

/-- `m_i = max(e_0, ..., e_i)`, from a maximum so far (R167). -/
def runningMax : Nat → List Byte → List Nat
  | _, [] => []
  | m, e :: es => max m e.toNat :: runningMax (max m e.toNat) es

/-- `level(u)`: the parity of the number of entries whose running maximum is at most `u` (R167). -/
def levelAt (es : List Byte) (u : Nat) : Bool :=
  (runningMax 0 es).countP (fun m => decide (m ≤ u)) % 2 == 1

/-- `H_s`: the units of slot `s` at level 1 (R167). Slot `s` covers `13s ≤ u < 13s + 13` (R163). -/
def highUnits (es : List Byte) (slot : Nat) : Nat :=
  (List.range bitUnits).countP (fun j => levelAt es (bitUnits * slot + j))

/-- The byte by the closed form: the votes of slots 1 to 8, in `BIT_ORDER` (R167). -/
def decodeClosed (c : Config) (es : List Byte) : Byte :=
  (List.range 8).foldl (fun out j => shiftIn c out (vote (highUnits es (j + 1)))) 0

/-! ## The event -/

/-- `Commit(byte)` (R168). -/
def State.commit (s : State) (byte : Byte) : State :=
  { s with
    lastByte := byte
    endSeen := endSeenNext s.cfg byte s.endSeen
    up := s.up ++ [.data byte]
    decodePending := false }

/-- The entries DECODER reads: `log[active xor 1][0 .. count-1]` (R53, R160). -/
def State.completedEntries (s : State) : Option (List Byte) :=
  logEntries s.log s.completed (s.count s.completed).toNat

/-- DECODE (R160). -/
def execDecode (s : State) : Host.Outcome State Fault Refusal :=
  if s.fault then .next s
  else if !s.decodePending then .next s
  else
    match s.completedEntries with
    | none => .fault .countAboveCapacity
    | some es => .next (s.commit (decodeBuffer s.cfg es))

end Sys2Proof.Machine
end

