-- ==== Sys2Proof/Machine/View.lean ====
section
/-! DEFINITION. The state codes (10_state.md R22, R24, R36, R41) and the register view that READ_REG
shows (R46, 45_control.md R215). -/

namespace Sys2Proof.Machine

/-- The code of `rxs` (R22). -/
def RxState.code : RxState → BitVec 3
  | .idle => 0
  | .high => 1
  | .low => 2
  | .checkSync1 => 3
  | .waitStop => 4
  | .frameStart => 5
  | .gathering => 6
  | .done => 7

/-- The code of `end_cause` (R24). -/
def EndCause.code : EndCause → BitVec 3
  | .none => 0
  | .endMarker => 1
  | .lostTooLong => 2
  | .lostPolarity => 3
  | .lostOverflow => 4
  | .lostOverrun => 5

/-- The code of `txs` (R36). -/
def TxState.code : TxState → BitVec 3
  | .idle => 0
  | .preamble => 1
  | .sync => 2
  | .message => 3
  | .training => 4
  | .done => 5

/-- The code of `fault_code` (R41). -/
def FaultCode.code : FaultCode → BitVec 2
  | .none => 0
  | .illegalEvent => 1
  | .exclusion => 2
  | .unmappedReg => 3

/-- The selector as its bit (R29). -/
def Buf.bit : Buf → Bool
  | .b0 => false
  | .b1 => true

/-- STATUS, bit 7 first (R46, R215). -/
def State.status (s : State) : Byte :=
  BitVec.ofBool s.fault ++ BitVec.ofBool s.active.bit ++ BitVec.ofBool s.endSeen ++
    BitVec.ofBool s.decodePending ++ BitVec.ofBool s.txDone ++ BitVec.ofBool s.rxDone ++
    BitVec.ofBool s.txArmed ++ BitVec.ofBool s.rxArmed

/-- `View(N)`: register N of the view; none where N is unmapped (R46, R215). Unlisted bits read 0. -/
def State.view (s : State) (n : Byte) : Option Byte :=
  match n.toNat with
  | 0x00 => some s.status
  | 0x01 => some (s.rxs.code.setWidth 8)
  | 0x02 => some (s.endCause.code.setWidth 8)
  | 0x03 => some (s.preambleCnt.setWidth 8)
  | 0x04 => some (s.time0.extractLsb' 0 8)
  | 0x05 => some (s.time0.extractLsb' 8 8)
  | 0x06 => some (s.time0.extractLsb' 16 8)
  | 0x07 => some (s.count0.setWidth 8)
  | 0x08 => some (s.count1.setWidth 8)
  | 0x09 => some s.lastByte
  | 0x0A => some (s.txs.code.setWidth 8)
  | 0x0B => some s.txCur
  | 0x0C => some (s.txBitsLeft.setWidth 8)
  | 0x0D => some s.txRep
  | 0x0E => some ((BitVec.ofBool s.txPin).setWidth 8)
  | 0x0F => some (s.faultCode.code.setWidth 8)
  | k =>
    if k < 0x30 then logRead s.log .b0 (k - 0x10)
    else logRead s.log .b1 (k - 0x30)

end Sys2Proof.Machine
end

