-- ==== Sys2Proof/Machine/Control.lean ====
section
/-! DEFINITION. Receive control, register reads and reset: RX_ENABLE, RX_DISABLE, READ_REG, RESET
(45_control.md). -/

namespace Sys2Proof.Machine

/-- The fields RX_ENABLE writes; the log is not cleared (R210). -/
def State.armReceive (s : State) : State :=
  { s with
    rxs := .idle
    endCause := .none
    rxDone := false
    time0 := 0
    preambleCnt := 0
    active := .b0
    count0 := 0
    count1 := 0
    decodePending := false
    endSeen := false
    lastByte := 0
    rxArmed := true }

/-- RX_ENABLE (R210, R211). -/
def execRxEnable (s : State) : Host.Outcome State Fault Refusal :=
  if s.fault then .next s
  else if s.txArmed then .next (s.raiseFault .exclusion)
  else .next s.armReceive

/-- RX_DISABLE (R212). -/
def execRxDisable (s : State) : Host.Outcome State Fault Refusal :=
  if s.fault then .next s
  else .next { s with rxArmed := false, decodePending := false }

/-- READ_REG (R214). It works while faulted. An unmapped number raises UNMAPPED_REG, which has no effect
where a fault is already recorded (R236). -/
def execReadReg (n : Byte) (s : State) : Host.Outcome State Fault Refusal :=
  match s.view n with
  | none => .next (s.raiseFault .unmappedReg)
  | some v => .next (s.emit (.reg n v))

/-- RESET: every field of 10_state.md to its value of R44, faulted or not. `up` is not changed, and the
model's own fields stay (R216). -/
def execReset (s : State) : Host.Outcome State Fault Refusal :=
  .next { State.resetWith s.cfg with trace := s.trace, up := s.up }

end Sys2Proof.Machine
end

