-- ==== Sys2Proof/Machine/ByteGatherer.lean ====
section
/-! DEFINITION. The byte gatherer: EDGE in Gathering (42_byte_gatherer.md). -/

namespace Sys2Proof.Machine

/-- The first condition of R140 that ends the frame, in the priority order of R144; none where the edge
is gathered. -/
def gatherEnd (l : Bool) (iv : Byte) (s : State) : Option EndCause :=
  if tooLong iv then some .lostTooLong
  else if wrongPolarity l iv then some .lostPolarity
  else if s.endSeen then some .endMarker
  else if isBoundary l iv && s.decodePending then some .lostOverrun
  else if (s.count s.active).toNat = edgeCap then some .lostOverflow
  else none

/-- EDGE in `Gathering` (R140): end the frame, or append, and hand over at a boundary. -/
def gatherEdge (l : Bool) (iv : Byte) (now : Stamp) (s : State) :
    Host.Outcome State Fault Refusal :=
  match gatherEnd l iv s with
  | some c => .next (s.terminate c)
  | none =>
    match s.append iv with
    | none => .fault .countAboveCapacity
    | some t => .next (if isBoundary l iv then t.handoff now else t)

end Sys2Proof.Machine
end

