-- ==== Sys2Proof/Machine/EdgeCapture.lean ====
section
/-! DEFINITION. Edge capture and the frame/sync detector: the EDGE event (40_edge_capture.md,
41_sync_detector.md). -/

namespace Sys2Proof.Machine

/-- The end of every scanning transition: the next state and the re-latch (R128, R103). -/
def State.scanTo (s : State) (r : RxState) (now : Stamp) : State := { s with rxs := r, time0 := now }

/-- EDGE in `Idle` (R120). -/
def edgeIdle (l : Bool) (now : Stamp) (s : State) : State :=
  s.scanTo (if l then .high else .idle) now

/-- EDGE in `High` (R121). -/
def edgeHigh (l : Bool) (iv : Byte) (now : Stamp) (s : State) : State :=
  s.scanTo (if l then .high else if sync0Min ≤ iv.toNat then .checkSync1 else .low) now

/-- EDGE in `Low` (R122). -/
def edgeLow (l : Bool) (now : Stamp) (s : State) : State :=
  s.scanTo (if l then .high else .low) now

/-- EDGE in `CheckSync1` (R123). -/
def edgeCheckSync1 (l : Bool) (iv : Byte) (now : Stamp) (s : State) : State :=
  s.scanTo
    (if l then (if sync1Min ≤ iv.toNat ∧ iv.toNat ≤ sync1Max then .waitStop else .high) else .low) now

/-- Frame start, the transient `FrameStart` that ends in `Gathering` (R126). -/
def State.startFrame (s : State) (now : Stamp) : State :=
  { s.setCount s.active 0 with
    rxs := .gathering
    endSeen := false
    time0 := now
    up := s.up ++ [.frameStart] }

/-- EDGE in `WaitStop` (R124). The interval is not looked at (R125). -/
def edgeWaitStop (l : Bool) (now : Stamp) (s : State) : State :=
  if l then s.scanTo .waitStop now else s.startFrame now

/-- The state rule of a processed EDGE (R100): `s` is the state after PreambleUpdate. -/
def edgeRule (l : Bool) (iv : Byte) (now : Stamp) (s : State) : Host.Outcome State Fault Refusal :=
  match s.rxs with
  | .idle => .next (edgeIdle l now s)
  | .high => .next (edgeHigh l iv now s)
  | .low => .next (edgeLow l now s)
  | .checkSync1 => .next (edgeCheckSync1 l iv now s)
  | .waitStop => .next (edgeWaitStop l now s)
  | .gathering => gatherEdge l iv now s
  | .frameStart => .fault .edgeInFrameStart
  | .done => .fault .edgeInDone

/-- EDGE (R100, in the order of R106): masked or faulted, nothing; else the interval from the old
`time0`, PreambleUpdate from the old `rxs`, then the state rule. -/
def execEdge (l : Bool) (ts : Stamp) (s : State) : Host.Outcome State Fault Refusal :=
  if s.fault then .next s
  else if !s.rxArmed then .next s
  else
    let now := sampleNow s.cfg ts
    let iv := interval s.cfg s.time0 now
    edgeRule l iv now (s.preambleUpdate iv)

/-- The detector's output `resync`: the step re-latches `time0` (R103, R104). It is not stored. -/
def resync (l : Bool) (ts : Stamp) (s : State) : Bool :=
  !s.fault && s.rxArmed &&
    match s.rxs with
    | .idle | .high | .low | .checkSync1 | .waitStop => true
    | .gathering =>
      let iv := interval s.cfg s.time0 (sampleNow s.cfg ts)
      isBoundary l iv && (gatherEnd l iv s).isNone && decide ((s.count s.active).toNat < edgeCap)
    | .frameStart | .done => false

end Sys2Proof.Machine
end

