-- ==== Sys2Proof/Machine/Transmit.lean ====
section
/-! DEFINITION. The transmit bit-stream generator: TX_ENABLE, TX_TICK, TX_DISABLE (44_transmit.md). -/

namespace Sys2Proof.Machine

/-- The fields TX_ENABLE writes (R180). -/
def State.armTransmit (s : State) : State :=
  { s with
    txs := .idle
    txCur := 0
    txBitsLeft := 0
    txRep := 0
    txDone := false
    txPin := true
    txArmed := true }

/-- TX_ENABLE (R180, R181). -/
def execTxEnable (s : State) : Host.Outcome State Fault Refusal :=
  if s.fault then .next s
  else if s.rxArmed then .next (s.raiseFault .exclusion)
  else .next s.armTransmit

/-- TX_DISABLE (R184). -/
def execTxDisable (s : State) : Host.Outcome State Fault Refusal :=
  if s.fault then .next s
  else .next { s with txArmed := false, txPin := true }

/-- Load one byte and count it: Preamble, Sync and Training bytes (R185). -/
def State.loadCounted (s : State) (x : Byte) : State := { s with txCur := x, txRep := s.txRep + 1 }

/-- Enter a phase with nothing of it loaded (R185). -/
def State.enterPhase (s : State) (p : TxState) : State := { s with txs := p, txRep := 0 }

/-- LoadNext in `Training` (R185). -/
def loadTraining (s : State) : State :=
  if s.txRep.toNat < s.cfg.trailerCount.toNat then s.loadCounted trainingByte
  else { s with txs := .done }

/-- LoadNext in `Message` (R185): the only phase that reads the answer (R75). -/
def loadMessage (answer : Option Byte) (s : State) : State :=
  match answer with
  | some x => { s with txCur := x }
  | none => loadTraining (s.enterPhase .training)

/-- LoadNext in `Sync` (R185). -/
def loadSync (answer : Option Byte) (s : State) : State :=
  if s.txRep.toNat < 2 then s.loadCounted (if s.txRep = 0 then syncByte0 else syncByte1)
  else loadMessage answer (s.enterPhase .message)

/-- LoadNext in `Preamble` (R185). -/
def loadPreamble (answer : Option Byte) (s : State) : State :=
  if s.txRep.toNat < s.cfg.preambleCount.toNat then s.loadCounted trainingByte
  else loadSync answer (s.enterPhase .sync)

/-- `LoadNext(answer)`, the phase sequencer: each phase falls through to the next when it has nothing
left to load (R185). -/
def loadNext (answer : Option Byte) (s : State) : State :=
  match s.txs with
  | .idle => loadPreamble answer (s.enterPhase .preamble)
  | .preamble => loadPreamble answer s
  | .sync => loadSync answer s
  | .message => loadMessage answer s
  | .training => loadTraining s
  | .done => s

/-- `Finish()` (R188). -/
def State.finish (s : State) : State :=
  { s with txPin := true, txDone := true, up := s.up ++ [.txDone] }

/-- `DriveBit()`: bit `10 - tx_bits_left` of the current frame (R186). No bit is due where
`tx_bits_left` is above 10, which no rule produces (I18). -/
def driveBit (s : State) : Host.Outcome State Fault Refusal :=
  if frameLen < s.txBitsLeft.toNat then .fault .bitsLeftAboveTen
  else
    .next
      { s with
        txPin := frameBit s.cfg s.txCur (frameLen - s.txBitsLeft.toNat)
        txBitsLeft := s.txBitsLeft - 1 }

/-- TX_TICK (R182, R183, R189). -/
def execTxTick (answer : Option Byte) (s : State) : Host.Outcome State Fault Refusal :=
  if s.fault then .next s
  else if !s.txArmed then .next s
  else if s.txs = .done then .next { s with txPin := true }
  else if s.txBitsLeft = 0 then
    let t := loadNext answer s
    if t.txs = .done then .next t.finish
    else driveBit { t with txBitsLeft := BitVec.ofNat 4 frameLen }
  else driveBit s

/-- The next tick reads its answer, because a Message byte is due: `tx_bits_left = 0`, in Message, or in
Sync with both sync bytes loaded (70_reset_and_hazards.md R271, 30_encoding.md R75). -/
def isFetchTick (s : State) : Bool :=
  !s.fault && s.txArmed && decide (s.txBitsLeft = 0) &&
    (decide (s.txs = .message) || (decide (s.txs = .sync) && decide (2 ≤ s.txRep.toNat)))

end Sys2Proof.Machine
end

