-- ==== Sys2Proof/Syntax.lean ====
section
/-! DEFINITION. The events of the engine, one constructor for each row of spec/opcode_table.json
(30_encoding.md R73), with the operands as R72 assembles them. -/

namespace Sys2Proof

/-- One event. Levels are `true` for logic-high and `false` for logic-low (00_scope.md R10). -/
inductive Instr where
  /-- EDGE: the new level `l` of the receive pin and the timebase value `ts` captured at the edge. -/
  | edge (l : Bool) (ts : Stamp)
  /-- DECODE: one run of the deferred decoder. -/
  | decode
  /-- TX_TICK: one transmit timer period, with the host's answer to a next-byte request. -/
  | txTick (answer : Option Byte)
  /-- RX_ENABLE. -/
  | rxEnable
  /-- RX_DISABLE. -/
  | rxDisable
  /-- TX_ENABLE. -/
  | txEnable
  /-- TX_DISABLE. -/
  | txDisable
  /-- READ_REG of register number `n`. -/
  | readReg (n : Byte)
  /-- RESET. -/
  | reset
  deriving DecidableEq, Repr

end Sys2Proof
end

