-- ==== Sys2Proof/Machine/Dispatch.lean ====
section
/-! DEFINITION. One arm for each event of 30_encoding.md R73. -/

namespace Sys2Proof.Machine

def exec (i : Instr) (s : State) : Host.Outcome State Fault Refusal :=
  match i with
  | .edge l ts => Sys2Proof.Machine.execEdge l ts s
  | .decode => Sys2Proof.Machine.execDecode s
  | .txTick answer => Sys2Proof.Machine.execTxTick answer s
  | .rxEnable => Sys2Proof.Machine.execRxEnable s
  | .rxDisable => Sys2Proof.Machine.execRxDisable s
  | .txEnable => Sys2Proof.Machine.execTxEnable s
  | .txDisable => Sys2Proof.Machine.execTxDisable s
  | .readReg n => Sys2Proof.Machine.execReadReg n s
  | .reset => Sys2Proof.Machine.execReset s

end Sys2Proof.Machine
end

