-- ==== Sys2Proof/WellFormed.lean ====
section
/-! DEFINITION. Which configurations are legal (00_scope.md R7, D41) and which events can be encoded
(30_encoding.md R72, R74). -/

namespace Sys2Proof

/-- 8 ≤ W ≤ 24 (R7). -/
def Config.widthOk (c : Config) : Bool := decide (8 ≤ c.width) && decide (c.width ≤ 24)

/-- 0 ≤ CLOCK_SHIFT < W (R7). -/
def Config.shiftOk (c : Config) : Bool := decide (c.clockShift < c.width)

/-- The configuration lies in the ranges of R7. The other parameters' types are their ranges. -/
def Config.wf (c : Config) : Bool := c.widthOk && c.shiftOk

/-- The event has a legal word: `TS[23:W]` is 0 for an EDGE (R72). Every other event's operands are
exactly what its fields hold. -/
def Instr.wf (c : Config) : Instr → Bool
  | .edge _ ts => decide (ts.toNat < 2 ^ c.width)
  | .decode => true
  | .txTick _ => true
  | .rxEnable => true
  | .rxDisable => true
  | .txEnable => true
  | .txDisable => true
  | .readReg _ => true
  | .reset => true

end Sys2Proof
end

