-- ==== Sys2Proof/Decode.lean ====
section
/-! DEFINITION. The event decoder, total on every 32-bit word and on any bytes (30_encoding.md R71 to
R76), and after it the encoder. -/

namespace Sys2Proof

/-- Why a word or a byte string is no event. The first four are the illegal words of R74; the last
says that fewer than four bytes are left, so there is no word to read. -/
inductive Reject where
  /-- `OP` is 0000 or in 1001..1110. -/
  | reservedOpcode
  /-- A bit the format marks 0 is 1. -/
  | reservedBits
  /-- An EDGE word with W < 24 and `TS[23:W] ≠ 0`. -/
  | stampTooWide
  /-- A TX_TICK word with V = 0 and B ≠ 0. -/
  | answerNotCanonical
  /-- Fewer than four bytes. -/
  | truncated
  deriving DecidableEq, Repr

/-- The field `OP`, bits 31..28 (R71). -/
def opField (w : Word) : BitVec 4 := w.extractLsb' 28 4

/-- The field `L`, bit 24 (R72). -/
def levelField (w : Word) : Bool := w.getLsbD 24

/-- The field `TS`, bits 23..0 (R72). -/
def stampField (w : Word) : Stamp := w.extractLsb' 0 24

/-- The field `V`, bit 8 (R72). -/
def validField (w : Word) : Bool := w.getLsbD 8

/-- The fields `B` of TX_TICK and `N` of READ_REG, bits 7..0 (R72). -/
def byteField (w : Word) : Byte := w.extractLsb' 0 8

/-- Format Z: every bit below `OP` is 0 (R71). -/
def decodeZ (w : Word) (i : Instr) : Except Reject Instr :=
  if w.extractLsb' 0 28 = 0#28 then .ok i else .error .reservedBits

/-- Format E (R71, R74). -/
def decodeE (c : Config) (w : Word) : Except Reject Instr :=
  if w.extractLsb' 25 3 ≠ 0#3 then .error .reservedBits
  else if 2 ^ c.width ≤ (stampField w).toNat then .error .stampTooWide
  else .ok (.edge (levelField w) (stampField w))

/-- Format T (R71, R72, R74). -/
def decodeT (w : Word) : Except Reject Instr :=
  if w.extractLsb' 9 19 ≠ 0#19 then .error .reservedBits
  else if validField w then .ok (.txTick (some (byteField w)))
  else if byteField w = 0#8 then .ok (.txTick none)
  else .error .answerNotCanonical

/-- Format R (R71). -/
def decodeR (w : Word) : Except Reject Instr :=
  if w.extractLsb' 8 20 = 0#20 then .ok (.readReg (byteField w)) else .error .reservedBits

/-- The decoding function of R76. -/
def decode (c : Config) (w : Word) : Except Reject Instr :=
  match (opField w).toNat with
  | 1 => decodeE c w
  | 2 => decodeZ w .decode
  | 3 => decodeT w
  | 4 => decodeZ w .rxEnable
  | 5 => decodeZ w .rxDisable
  | 6 => decodeZ w .txEnable
  | 7 => decodeZ w .txDisable
  | 8 => decodeR w
  | 15 => decodeZ w .reset
  | _ => .error .reservedOpcode

/-- A word as bytes, most significant byte first (R71). -/
def wordBytes (w : Word) : List Byte :=
  [w.extractLsb' 24 8, w.extractLsb' 16 8, w.extractLsb' 8 8, w.extractLsb' 0 8]

/-- The event at the head of a byte string, and the bytes after it. -/
def decodeBytes (c : Config) : List Byte → Except Reject (Instr × List Byte)
  | b3 :: b2 :: b1 :: b0 :: rest => (decode c (b3 ++ b2 ++ b1 ++ b0)).map (fun i => (i, rest))
  | _ => .error .truncated

/-- The decoder on a word numbered as spec/opcode_table.json numbers its bits: bit 0 of `w` is bit 0
of the event word, and bits from `nbits` up are 0. Laid out as bytes and read with the parameters of
`Config.vectors` (log 8). An event has 32 bits, so a number with a higher bit set is no event. -/
def decodeTableWord (nbits w : Nat) : Option Instr :=
  let v := w % 2 ^ nbits
  if v < 2 ^ 32 then
    match decodeBytes Config.vectors (wordBytes (BitVec.ofNat 32 v)) with
    | .ok (i, _) => some i
    | .error _ => none
  else none

/-! The encoder: the one legal word of a well-formed event, from the formats of R71. -/

/-- The opcode of an event (R73). -/
def opcodeOf : Instr → BitVec 4
  | .edge _ _ => 0x1#4
  | .decode => 0x2#4
  | .txTick _ => 0x3#4
  | .rxEnable => 0x4#4
  | .rxDisable => 0x5#4
  | .txEnable => 0x6#4
  | .txDisable => 0x7#4
  | .readReg _ => 0x8#4
  | .reset => 0xF#4

/-- Bits 27..0 of an event's word: the operand fields among zeros (R71, R72). -/
def operandBits : Instr → BitVec 28
  | .edge l ts => 0#3 ++ BitVec.ofBool l ++ ts
  | .txTick (some b) => 0#19 ++ 1#1 ++ b
  | .txTick none => 0#28
  | .readReg n => 0#20 ++ n
  | .decode => 0#28
  | .rxEnable => 0#28
  | .rxDisable => 0#28
  | .txEnable => 0#28
  | .txDisable => 0#28
  | .reset => 0#28

/-- The event's word: `OP` and then the operand bits (R71). -/
def encode (i : Instr) : Word := opcodeOf i ++ operandBits i

/-- The event's word as bytes, most significant first (R71). -/
def encodeBytes (i : Instr) : List Byte := wordBytes (encode i)

end Sys2Proof
end

