-- ==== Sys2Proof/Machine/Trace.lean ====
section
/-! DEFINITION. Delivery of the event trace, one word a step (30_encoding.md R70), and what becomes of
an illegal word (45_control.md R217). -/

namespace Sys2Proof.Machine

/-- The next event word, and the state with that word delivered; none where no event is waiting
(R70; log 3). -/
def fetch (s : State) : Option (Word × State) :=
  match s.trace with
  | [] => none
  | w :: rest => some (w, { s with trace := rest })

/-- Put one event word where the next step takes it. -/
def State.pushWord (s : State) (w : Word) : State := { s with trace := w :: s.trace }

/-- An illegal word raises ILLEGAL_EVENT and has no other effect (R74, R217). -/
def illegalWord (s : State) : State := s.raiseFault .illegalEvent

end Sys2Proof.Machine
end

