-- ==== Sys2Proof/Machine/Step.lean ====
section
/-! DEFINITION. One step: the next event of the trace, decoded and processed as one atomic step
(20_memory.md R56). -/

namespace Sys2Proof.Machine

/-- Take the next event word, decode it and process the event. With no event waiting nothing happens:
no rule is driven by time without an event (R266; log 4). -/
def step (s : State) : Host.Outcome State Fault Refusal :=
  match fetch s with
  | none => .next s
  | some (w, t) =>
    match decode t.cfg w with
    | .ok i => exec i t
    | .error _ => .next (illegalWord t)

/-- `s` with the word numbered as spec/opcode_table.json numbers its bits as the next event (log 3). -/
def State.withFetchWord (s : State) (nbits w : Nat) : State :=
  s.pushWord (BitVec.ofNat 32 (w % 2 ^ nbits))

end Sys2Proof.Machine
end

