-- ==== Sys2Proof/Machine/Assembler.lean ====
section
/-! DEFINITION. The trace assembler: line syntax and pseudo-instructions (30_encoding.md R77, R78), with
characters as lists so that the kernel can evaluate it. It serves the host's side: no step reads it. -/

namespace Sys2Proof.Machine

/-- One line of a trace (R77) or a pseudo-instruction (R78). -/
inductive AsmLine where
  /-- A line that stands for one event: `edge`, `decode`, `tick`, `read`, `reset` and the enables. -/
  | event (i : Instr)
  /-- `.word X`, legal or not. -/
  | word (x : Word)
  /-- `rise T`, T in units. -/
  | rise (t : Nat)
  /-- `fall T`. -/
  | fall (t : Nat)
  /-- `wave T, X`. -/
  | wave (t : Nat) (x : Byte)
  /-- `ticks n`. -/
  | ticks (n : Nat)
  deriving DecidableEq, Repr

/-! ## Expansion (R78) -/

/-- A time in units as a timestamp, `(T << CLOCK_SHIFT) mod 2^W` (R78). -/
def unitStamp (c : Config) (t : Nat) : Stamp := BitVec.ofNat 24 ((t <<< c.clockShift) % 2 ^ c.width)

/-- The frame bits 0..9 of byte `x` (R78, R186). -/
def frameBits (c : Config) (x : Byte) : List Bool := (List.range frameLen).map (frameBit c x)

/-- The edges of a level sequence, one level every bit period from unit `t`, on a line at level `p`
(R78, R190). -/
def levelEdges (c : Config) : Nat → Bool → List Bool → List Instr
  | _, _, [] => []
  | t, p, f :: fs =>
    (if f = p then [] else [Instr.edge f (unitStamp c t)]) ++ levelEdges c (t + bitUnits) f fs

/-- `wave T, X`: the edges an ideal transmitter makes for byte `x` (R78). The stop bit leaves the line
high. -/
def waveEdges (c : Config) (p : Bool) (t : Nat) (x : Byte) : List Instr :=
  levelEdges c t p (frameBits c x)

/-- The words of one line and the line level after it (R77, R78). R78 gives `rise`, `fall` and `wave`
their effect on the level. That any other line leaves it as it is, a plain `edge` and the `.word` of an
EDGE among them, is the model's choice: DESIGN CHOICE, log 15. -/
def AsmLine.expand (c : Config) (p : Bool) : AsmLine → List Word × Bool
  | .event i => ([encode i], p)
  | .word x => ([x], p)
  | .rise t => ([encode (.edge true (unitStamp c t))], true)
  | .fall t => ([encode (.edge false (unitStamp c t))], false)
  | .wave t x => ((waveEdges c p t x).map encode, true)
  | .ticks n => (List.replicate n (encode (.txTick none)), p)

/-- The words of a trace, from line level `p` (R78: 1 at the start of a trace). -/
def assembleFrom (c : Config) : Bool → List AsmLine → List Word
  | _, [] => []
  | p, a :: as => (a.expand c p).1 ++ assembleFrom c (a.expand c p).2 as

/-- The event trace of a list of lines (R78). -/
def assemble (c : Config) (as : List AsmLine) : List Word := assembleFrom c true as

/-! ## Line syntax (R77) -/

/-- A decimal digit. -/
def decDigit (ch : Char) : Option Nat :=
  let k := ch.toNat
  if 48 ≤ k ∧ k ≤ 57 then some (k - 48) else none

/-- A hexadecimal digit, in either case. -/
def hexDigit (ch : Char) : Option Nat :=
  let k := ch.toNat
  if 48 ≤ k ∧ k ≤ 57 then some (k - 48)
  else if 65 ≤ k ∧ k ≤ 70 then some (k - 55)
  else if 97 ≤ k ∧ k ≤ 102 then some (k - 87)
  else none

/-- The digits after those already read, most significant first. -/
def digitsFrom (base : Nat) (digit : Char → Option Nat) : Nat → List Char → Option Nat
  | acc, [] => some acc
  | acc, ch :: cs =>
    match digit ch with
    | none => none
    | some d => digitsFrom base digit (acc * base + d) cs

/-- A number, decimal or hexadecimal with `0x` (R77). -/
def number : List Char → Option Nat
  | [] => none
  | ['0', 'x'] => none
  | '0' :: 'x' :: cs => digitsFrom 16 hexDigit 0 cs
  | cs => digitsFrom 10 decDigit 0 cs

/-- A number below `bound`. -/
def numberBelow (bound : Nat) (cs : List Char) : Option Nat :=
  (number cs).bind fun n => if n < bound then some n else none

/-- An 8-bit number. -/
def byteArg (cs : List Char) : Option Byte := (numberBelow 256 cs).map (BitVec.ofNat 8)

/-- The characters before a comment (R77). -/
def dropComment (cs : List Char) : List Char := cs.takeWhile (fun ch => ch ≠ ';')

/-- The tokens of a line. Blanks and commas separate them (DESIGN CHOICE, log 11). -/
def tokensFrom : List Char → List Char → List (List Char)
  | cur, [] => if cur = [] then [] else [cur]
  | cur, ch :: cs =>
    if ch = ' ' ∨ ch = ',' ∨ ch = '\t' ∨ ch = '\r' then
      (if cur = [] then tokensFrom [] cs else cur :: tokensFrom [] cs)
    else tokensFrom (cur ++ [ch]) cs

/-- The line that a list of tokens stands for (R77, R78); none where it is no line of the syntax. -/
def lineOf : List (List Char) → Option AsmLine
  | [['e', 'd', 'g', 'e'], l, ts] =>
    (numberBelow 2 l).bind fun l =>
      (numberBelow (2 ^ 24) ts).map fun ts => .event (.edge (decide (l = 1)) (BitVec.ofNat 24 ts))
  | [['d', 'e', 'c', 'o', 'd', 'e']] => some (.event .decode)
  | [['t', 'i', 'c', 'k']] => some (.event (.txTick none))
  | [['t', 'i', 'c', 'k'], ['n', 'o', 'n', 'e']] => some (.event (.txTick none))
  | [['t', 'i', 'c', 'k'], b] => (byteArg b).map fun b => .event (.txTick (some b))
  | [['r', 'x', '_', 'e', 'n', 'a', 'b', 'l', 'e']] => some (.event .rxEnable)
  | [['r', 'x', '_', 'd', 'i', 's', 'a', 'b', 'l', 'e']] => some (.event .rxDisable)
  | [['t', 'x', '_', 'e', 'n', 'a', 'b', 'l', 'e']] => some (.event .txEnable)
  | [['t', 'x', '_', 'd', 'i', 's', 'a', 'b', 'l', 'e']] => some (.event .txDisable)
  | [['r', 'e', 'a', 'd'], n] => (byteArg n).map fun n => .event (.readReg n)
  | [['r', 'e', 's', 'e', 't']] => some (.event .reset)
  | [['.', 'w', 'o', 'r', 'd'], x] => (numberBelow (2 ^ 32) x).map fun x => .word (BitVec.ofNat 32 x)
  | [['r', 'i', 's', 'e'], t] => (number t).map .rise
  | [['f', 'a', 'l', 'l'], t] => (number t).map .fall
  | [['w', 'a', 'v', 'e'], t, x] => (number t).bind fun t => (byteArg x).map fun x => .wave t x
  | [['t', 'i', 'c', 'k', 's'], n] => (number n).map .ticks
  | _ => none

/-- The lines of a text, split at line ends; the last one is in `cur`. -/
def splitLines : List Char → List Char → List (List Char)
  | cur, [] => [cur]
  | cur, ch :: cs => if ch = '\n' then cur :: splitLines [] cs else splitLines (cur ++ [ch]) cs

/-- The lines that say something; none where one of them is no line of the syntax. -/
def parseLines : List (List Char) → Option (List AsmLine)
  | [] => some []
  | t :: ts =>
    match tokensFrom [] (dropComment t) with
    | [] => parseLines ts
    | toks => (lineOf toks).bind fun a => (parseLines ts).map fun as => a :: as

/-- The event trace of an assembler text (R77, R78). -/
def assembleText (c : Config) (cs : List Char) : Option (List Word) :=
  (parseLines (splitLines [] cs)).map (assemble c)

end Sys2Proof.Machine
end

