-- ==== Sys2Proof/Safety.lean ====
section
/-! DEFINITION. What claims are stated in terms of: the agents, runs of events, the invariants of the
engine, and the observations and premises of 60_exceptions.md R249 to R252. -/

namespace Sys2Proof

/-- The agents (00_scope.md R5). -/
inductive Agent where
  | capture
  | decoder
  | txtick
  | host
  deriving DecidableEq, Repr

/-- The agent that processes an event (R5). -/
def Instr.agent : Instr → Agent
  | .edge _ _ => .capture
  | .decode => .decoder
  | .txTick _ => .txtick
  | .rxEnable => .host
  | .rxDisable => .host
  | .txEnable => .host
  | .txDisable => .host
  | .readReg _ => .host
  | .reset => .host

end Sys2Proof

namespace Sys2Proof.Machine

/-- The interrupt source's mask, or its pending request for DECODER (60_exceptions.md R238). A host
command has no mask. -/
def State.enabled (s : State) : Agent → Bool
  | .capture => s.rxArmed
  | .decoder => s.decodePending
  | .txtick => s.txArmed
  | .host => true

/-! ## Runs -/

/-- Events processed in order, stopping at the first fault or refusal (20_memory.md R56). -/
def runEvents : List Instr → State → Host.Outcome State Fault Refusal
  | [], s => .next s
  | i :: is, s =>
    match exec i s with
    | .next t => runEvents is t
    | .fault r => .fault r
    | .refused r => .refused r

/-- A tick's answer from a message not yet sent: its first byte where the tick fetches, else none
(60_exceptions.md R253, 70_reset_and_hazards.md R271). -/
def hostAnswer (s : State) (msg : List Byte) : Option Byte := if isFetchTick s then msg.head? else none

/-- `n` ticks with the answers of a host that holds `msg`: the pin level after each tick, the rest of
the message and the last state; none where a tick does not complete. -/
def runTicks : Nat → List Byte → State → Option (List Bool × List Byte × State)
  | 0, msg, s => some ([], msg, s)
  | n + 1, msg, s =>
    match exec (.txTick (hostAnswer s msg)) s with
    | .next t =>
      (runTicks n (if isFetchTick s then msg.tail else msg) t).map fun r => (t.txPin :: r.1, r.2)
    | _ => none

/-- The bytes of a whole transmission of `msg`: preamble, sync word, message, trailer (R190). -/
def transmissionBytes (c : Config) (msg : List Byte) : List Byte :=
  List.replicate c.preambleCount.toNat trainingByte ++ [syncByte0, syncByte1] ++ msg ++
    List.replicate c.trailerCount.toNat trainingByte

/-- The bits of back-to-back bytes (R190). -/
def bitStream (c : Config) (bytes : List Byte) : List Bool := bytes.flatMap (frameBits c)

/-- The ideal edges of back-to-back bytes from unit `t`, on a line that is high, with one DECODE after
the first edge of each byte, which is the boundary of the byte before it (R78, R191). -/
def receiveEvents (c : Config) : Nat → List Byte → List Instr
  | _, [] => []
  | t, x :: xs =>
    (match waveEdges c true t x with
      | [] => []
      | e :: es => e :: .decode :: es) ++ receiveEvents c (t + bitUnits * frameLen) xs

/-- The edges of one byte inside its frame, each as its level and its offset in units from the byte's
start edge: bit k begins at `13k`, moved by `d k` units (43_decoder.md R169). The start edge itself is
not among them. -/
def jitteredEdges (c : Config) (x : Byte) (d : Nat → Int) : List (Bool × Nat) :=
  ((List.range 9).filter (fun j => frameBit c x (j + 1) != frameBit c x j)).map fun j =>
    (frameBit c x (j + 1), ((bitUnits * (j + 1) : Nat) + d (j + 1) : Int).toNat)

/-- The EDGE event at an offset in units from the timestamp `t0` (R101, R265). -/
def offsetEdge (c : Config) (t0 : Stamp) (e : Bool × Nat) : Instr :=
  .edge e.1 (BitVec.ofNat 24 ((t0.toNat + (e.2 <<< c.clockShift)) % 2 ^ c.width))

/-! ## Illegal words -/

/-- The bits of `w` from `lo` up, below `hi`. -/
def wordBits (w : Word) (lo hi : Nat) : Nat := w.toNat / 2 ^ lo % 2 ^ (hi - lo)

/-- A word is illegal, in the four cases of R74, written from the formats of R71 and apart from the
decoder: a reserved `OP`, a bit the format marks 0, EDGE timestamp bits at or above W, and a TX_TICK with
V = 0 and B ≠ 0. -/
def IllegalWord (c : Config) (w : Word) : Prop :=
  (wordBits w 28 32 = 0 ∨ (9 ≤ wordBits w 28 32 ∧ wordBits w 28 32 ≤ 14)) ∨
  (wordBits w 28 32 = 1 ∧ wordBits w 25 28 ≠ 0) ∨
  (wordBits w 28 32 = 3 ∧ wordBits w 9 28 ≠ 0) ∨
  (wordBits w 28 32 = 8 ∧ wordBits w 8 28 ≠ 0) ∨
  ((wordBits w 28 32 = 2 ∨ (4 ≤ wordBits w 28 32 ∧ wordBits w 28 32 ≤ 7) ∨ wordBits w 28 32 = 15) ∧
    wordBits w 0 28 ≠ 0) ∨
  (wordBits w 28 32 = 1 ∧ c.width < 24 ∧ wordBits w c.width 24 ≠ 0) ∨
  (wordBits w 28 32 = 3 ∧ wordBits w 8 9 = 0 ∧ wordBits w 0 8 ≠ 0)

/-! ## Invariants -/

/-- Every field holds a legal value (10_state.md R46, R23; `time0` is W bits, R27). -/
structure State.FieldsLegal (s : State) : Prop where
  time0 : s.time0.toNat < 2 ^ s.cfg.width
  preambleCnt : s.preambleCnt.toNat ≤ preambleCap
  count0 : s.count0.toNat ≤ edgeCap
  count1 : s.count1.toNat ≤ edgeCap
  txBitsLeft : s.txBitsLeft.toNat ≤ frameLen
  notFrameStart : s.rxs ≠ .frameStart

/-- Receive and transmit are never armed together (10_state.md R45). -/
def State.Exclusive (s : State) : Prop := ¬(s.rxArmed = true ∧ s.txArmed = true)

/-- What the receive flags say of each other: Done is disarmed (R150), a pending decode lies in an armed
Gathering (R160), and `rx_done`, `end_cause` and Done go together (R24, R26). -/
structure State.ReceiveFlags (s : State) : Prop where
  doneDisarmed : s.rxs = .done → s.rxArmed = false
  pendingInFrame : s.decodePending = true → s.rxArmed = true ∧ s.rxs = .gathering
  doneIff : s.rxDone = true ↔ s.rxs = .done
  causeIff : s.rxDone = true ↔ s.endCause ≠ .none

/-- What the transmit flags say of each other: `tx_done` is Done (R39), and a disarmed line is idle
(R38). -/
structure State.TransmitFlags (s : State) : Prop where
  doneIff : s.txDone = true ↔ s.txs = .done
  idleLine : s.txArmed = false → s.txPin = true

/-- The fault flag and its code go together (R41). -/
def State.FaultFlags (s : State) : Prop := s.fault = true ↔ s.faultCode ≠ .none

/-- The engine's main invariant. -/
structure State.Inv (s : State) : Prop where
  config : s.cfg.wf = true
  memory : s.log.wf = true
  fields : s.FieldsLegal
  exclusive : s.Exclusive
  receive : s.ReceiveFlags
  transmit : s.TransmitFlags
  fault : s.FaultFlags

/-- Entry (b, i) of the log, 0 where there is none. -/
def State.entry (s : State) (b : Buf) (i : Nat) : Byte := s.log.readCell (logAddr b i)

/-- What the buffers hold while a frame is gathered: every entry of the buffer being filled is an
ordinary edge, and a buffer handed to DECODER ends with its boundary (R141, R151, R165). -/
structure State.BuffersInv (s : State) : Prop where
  ordinary : s.rxs = .gathering → ∀ i < (s.count s.active).toNat, (s.entry s.active i).toNat < byteMin
  handed : s.decodePending = true →
    1 ≤ (s.count s.completed).toNat ∧
    (∀ i < (s.count s.completed).toNat - 1, (s.entry s.completed i).toNat < byteMin) ∧
    byteMin ≤ (s.entry s.completed ((s.count s.completed).toNat - 1)).toNat ∧
    (s.entry s.completed ((s.count s.completed).toNat - 1)).toNat ≤ byteMax

/-- `end_seen` says that the last committed byte is the end marker, and no decode follows it in its
frame (R33, R147). -/
def State.EndSeenInv (s : State) : Prop :=
  s.endSeen = true → s.cfg.endMarker = some s.lastByte ∧ s.decodePending = false

/-- What the byte-emission cursor holds in each phase (R36, R37, R185). -/
def State.CursorInv (s : State) : Prop :=
  match s.txs with
  | .idle => s.txBitsLeft = 0 ∧ s.txRep = 0 ∧ s.txCur = 0
  | .preamble => 1 ≤ s.txRep.toNat ∧ s.txRep.toNat ≤ s.cfg.preambleCount.toNat ∧ s.txCur = trainingByte
  | .sync => (s.txRep = 1 ∧ s.txCur = syncByte0) ∨ (s.txRep = 2 ∧ s.txCur = syncByte1)
  | .message => s.txRep = 0
  | .training => 1 ≤ s.txRep.toNat ∧ s.txRep.toNat ≤ s.cfg.trailerCount.toNat ∧ s.txCur = trainingByte
  | .done => s.txBitsLeft = 0 ∧ s.txRep = s.cfg.trailerCount

/-! ## Observations and premises -/

/-- Receive is active (R249). -/
def State.rxActive (s : State) : Bool := s.rxArmed && decide (s.rxs ≠ .done)

/-- Transmit is active (R249). -/
def State.txActive (s : State) : Bool := s.txArmed && decide (s.txs ≠ .done)

/-- A run that ends here is open: a frame, a decode or a transmission is in flight (R251). -/
def State.isOpen (s : State) : Bool :=
  decide (s.rxs = .gathering) || s.decodePending || s.txActive

/-- A proper end of a run: not faulted and not open. That a faulted state is never one is R237. The spec
calls some unfaulted ends open (R251) and does not say whether they are proper ends; that none of them
is one is the model's choice: DESIGN CHOICE, log 16. -/
def State.properEnd (s : State) : Bool := !s.fault && !s.isOpen

/-- What is seen of a run: the upward stream, the state's spec fields and whether it is faulted (R251). -/
def State.observe (s : State) : List UpEvent × State × Bool := (s.up, { s with trace := [] }, s.fault)

/-- A condition on every event of a run and the state it meets. -/
def alongRun (p : State → Instr → Bool) : List Instr → State → Bool
  | [], _ => true
  | i :: is, s =>
    p s i &&
      match exec i s with
      | .next t => alongRun p is t
      | _ => false

/-- Event `a` stands before the first event that `q` names, or there is none (R252 P3, P4). That a run
with no such event meets this, and that `a` counts by its place alone, whatever it does there, are the
model's choice: DESIGN CHOICE, log 17. -/
def standsBefore (a : Instr) (q : Instr → Bool) : List Instr → Bool
  | [] => true
  | i :: is => if i = a then true else if q i then false else standsBefore a q is

/-- An EDGE event. -/
def Instr.isEdge : Instr → Bool
  | .edge _ _ => true
  | .decode => false
  | .txTick _ => false
  | .rxEnable => false
  | .rxDisable => false
  | .txEnable => false
  | .txDisable => false
  | .readReg _ => false
  | .reset => false

/-- A TX_TICK event. -/
def Instr.isTick : Instr → Bool
  | .txTick _ => true
  | .edge _ _ => false
  | .decode => false
  | .rxEnable => false
  | .rxDisable => false
  | .txEnable => false
  | .txDisable => false
  | .readReg _ => false
  | .reset => false

/-- P1: the run starts with RESET (R252). -/
def premise1 (is : List Instr) : Bool := decide (is.head? = some .reset)

/-- P2: no fault is recorded (R252). -/
def premise2 (is : List Instr) (s : State) : Bool :=
  !s.fault &&
    alongRun (fun s i => match exec i s with | .next t => !t.fault | _ => false) is s

/-- P3: RX_ENABLE before the first EDGE, and no TX_ENABLE while receiving (R252). R252 does not define
"while receiving"; that it is `rx_armed = 1` is the model's choice: DESIGN CHOICE, log 17. -/
def premise3 (is : List Instr) (s : State) : Bool :=
  standsBefore .rxEnable Instr.isEdge is &&
    alongRun (fun s i => !(decide (i = .txEnable) && s.rxArmed)) is s

/-- P4: TX_ENABLE before the first TX_TICK, and no RX_ENABLE while transmitting (R252). R252 does not
define "while transmitting"; that it is `tx_armed = 1`, so that Done before TX_DISABLE counts although it
is neither active (R249) nor in flight (R251), is the model's choice: DESIGN CHOICE, log 17. -/
def premise4 (is : List Instr) (s : State) : Bool :=
  standsBefore .txEnable Instr.isTick is &&
    alongRun (fun s i => !(decide (i = .rxEnable) && s.txArmed)) is s

/-- P5, the part that words can show: the levels of the edges alternate, the last level before them
being `p` (R252). That timestamps are ordered cannot be read from values modulo 2^W (R265; log 9). That
the edges of the whole run count, masked ones too, is the model's choice: DESIGN CHOICE, log 17. -/
def premise5 : Option Bool → List Instr → Bool
  | _, [] => true
  | p, .edge l _ :: is => decide (p ≠ some l) && premise5 (some l) is
  | p, _ :: is => premise5 p is

end Sys2Proof.Machine
end

