-- ==== Sys2Proof/Certificates/Slice0/Obligations.lean ====
section
/-! DEFINITION. The statements about the engine, from the numbered rules of spec/. Hypotheses speak of
the state and the operands alone. A next state is written out as the old one with the fields that change,
so each such statement is its own frame. Parameters are never fixed: every statement holds for every
configuration its hypotheses allow. -/

open Sys2Proof Sys2Proof.Machine

/-! ## Words and events -/

/-- Decode and encode agree: a well-formed event of any kind, with any operands, is what its word decodes
to (30_encoding.md R71, R72, R76). -/
def Obligations.DecodeOfEncodeIsTheEvent : Prop :=
  ∀ (c : Config) (i : Instr), i.wf c = true → decode c (encode i) = .ok i

/-- A word that decodes is the one word of its event: decoding is one-to-one on legal words
(92_eei_decisions.md D39). -/
def Obligations.LegalWordIsTheWordOfItsEvent : Prop :=
  ∀ (c : Config) (w : Word) (i : Instr), decode c w = .ok i → encode i = w ∧ i.wf c = true

/-- R74 and R217: a word that is illegal in one of the four ways of R74 raises ILLEGAL_EVENT and has no
other effect, and keeps a code already recorded (R236); every other word is an event. -/
def Obligations.IllegalWordRaisesIllegalEvent : Prop :=
  ∀ (s : State) (w : Word) (rest : List Word), s.trace = w :: rest →
    (IllegalWord s.cfg w →
      step s = .next
        { s with
          trace := rest
          fault := true
          faultCode := if s.fault = true then s.faultCode else .illegalEvent }) ∧
    (¬IllegalWord s.cfg w → ∃ i, decode s.cfg w = .ok i)

/-- Words written out from the formats of R71, one for each event, decode to their events. -/
def Obligations.SampleWordsDecode : Prop :=
  decode Config.vectors 0x110006E7 = .ok (.edge true 1767) ∧
  decode Config.vectors 0x100003E8 = .ok (.edge false 1000) ∧
  decode Config.vectors 0x20000000 = .ok .decode ∧
  decode Config.vectors 0x30000135 = .ok (.txTick (some 0x35)) ∧
  decode Config.vectors 0x30000000 = .ok (.txTick none) ∧
  decode Config.vectors 0x40000000 = .ok .rxEnable ∧
  decode Config.vectors 0x50000000 = .ok .rxDisable ∧
  decode Config.vectors 0x60000000 = .ok .txEnable ∧
  decode Config.vectors 0x70000000 = .ok .txDisable ∧
  decode Config.vectors 0x800000FF = .ok (.readReg 0xFF) ∧
  decode Config.vectors 0xF0000000 = .ok .reset

/-- An event's four bytes, most significant first, are read back as the event, and the bytes after them
are left (R71). -/
def Obligations.BytesReadMostSignificantFirst : Prop :=
  ∀ (c : Config) (i : Instr) (rest : List Byte), i.wf c = true →
    decodeBytes c (encodeBytes i ++ rest) = .ok (i, rest)

/-- A step at a state whose next word decodes to an event is that event processed at the state with the
word delivered (R70, R56). -/
def Obligations.StepRunsTheDecodedEvent : Prop :=
  ∀ (s : State) (w : Word) (rest : List Word) (i : Instr),
    s.trace = w :: rest → decode s.cfg w = .ok i → step s = exec i { s with trace := rest }

/-- With no event waiting a step changes nothing. This is the model's choice (log 4), on R266: "No rule
is driven by time without an edge". -/
def Obligations.StepWithoutEventChangesNothing : Prop :=
  ∀ s : State, s.trace = [] → step s = .next s

/-! ## Edge capture -/

/-- R101: the interval is the W-bit modular difference, shifted and clamped to 255. -/
def Obligations.IntervalIsClampedModularDifference : Prop :=
  ∀ (c : Config) (time0 now : Stamp), c.wf = true →
    time0.toNat < 2 ^ c.width → now.toNat < 2 ^ c.width →
    (interval c time0 now).toNat =
      min 255 ((now.toNat + 2 ^ c.width - time0.toNat) % 2 ^ c.width / 2 ^ c.clockShift)

/-- An edge a gap of fewer than 2^W ticks after the reference measures that gap, across a wrap of the
counter too (R265's first case, an inference the spec marks as derived). -/
def Obligations.IntervalMeasuresTheGap : Prop :=
  ∀ (c : Config) (time0 : Stamp) (gap : Nat), c.wf = true →
    time0.toNat < 2 ^ c.width → gap < 2 ^ c.width →
    (interval c time0 (BitVec.ofNat 24 ((time0.toNat + gap) % 2 ^ c.width))).toNat =
      min 255 (gap / 2 ^ c.clockShift)

/-- Masked sources: an EDGE with receive disarmed, a DECODE with no request and a TX_TICK with transmit
disarmed change nothing and emit nothing (R183 and D33), in every state. -/
def Obligations.MaskedEventsChangeNothing : Prop :=
  (∀ (l : Bool) (ts : Stamp) (s : State), s.rxArmed = false → exec (.edge l ts) s = .next s) ∧
  (∀ s : State, s.decodePending = false → exec .decode s = .next s) ∧
  (∀ (answer : Option Byte) (s : State), s.txArmed = false → exec (.txTick answer) s = .next s)

/-- R120: an edge in Idle. The interval is not evaluated, and a falling edge keeps Idle. -/
def Obligations.EdgeInIdle : Prop :=
  ∀ (l : Bool) (ts : Stamp) (s : State), s.fault = false → s.rxArmed = true → s.rxs = .idle →
    exec (.edge l ts) s = .next
      { s with
        rxs := if l = true then .high else .idle
        time0 := sampleNow s.cfg ts }

/-- R121: an edge in High, with the SYNC0 threshold at 117. The preamble counter is that of R105. -/
def Obligations.EdgeInHigh : Prop :=
  ∀ (l : Bool) (ts : Stamp) (s : State), s.fault = false → s.rxArmed = true → s.rxs = .high →
    exec (.edge l ts) s = .next
      { s with
        rxs :=
          if l = true then .high
          else if 117 ≤ (interval s.cfg s.time0 (sampleNow s.cfg ts)).toNat then .checkSync1
          else .low
        preambleCnt := preambleNext .high (interval s.cfg s.time0 (sampleNow s.cfg ts)) s.preambleCnt
        time0 := sampleNow s.cfg ts }

/-- R122: an edge in Low. A rising edge enters High whatever its interval. -/
def Obligations.EdgeInLow : Prop :=
  ∀ (l : Bool) (ts : Stamp) (s : State), s.fault = false → s.rxArmed = true → s.rxs = .low →
    exec (.edge l ts) s = .next
      { s with
        rxs := if l = true then .high else .low
        preambleCnt := preambleNext .low (interval s.cfg s.time0 (sampleNow s.cfg ts)) s.preambleCnt
        time0 := sampleNow s.cfg ts }

/-- R123: an edge in CheckSync1, with the SYNC1 window 117..130, inclusive at both ends. -/
def Obligations.EdgeInCheckSync1 : Prop :=
  ∀ (l : Bool) (ts : Stamp) (s : State), s.fault = false → s.rxArmed = true → s.rxs = .checkSync1 →
    exec (.edge l ts) s = .next
      { s with
        rxs :=
          if l = true then
            if 117 ≤ (interval s.cfg s.time0 (sampleNow s.cfg ts)).toNat ∧
                (interval s.cfg s.time0 (sampleNow s.cfg ts)).toNat ≤ 130 then .waitStop
            else .high
          else .low
        preambleCnt :=
          preambleNext .checkSync1 (interval s.cfg s.time0 (sampleNow s.cfg ts)) s.preambleCnt
        time0 := sampleNow s.cfg ts }

/-- R124, R125 and R126: an edge in WaitStop. A rising edge stays; a falling edge starts the frame
whatever its interval: FRAME_START, the active buffer empty, `end_seen` clear, `active` unchanged. -/
def Obligations.EdgeInWaitStop : Prop :=
  ∀ (ts : Stamp) (s : State), s.fault = false → s.rxArmed = true → s.rxs = .waitStop →
    exec (.edge true ts) s = .next
      { s with
        preambleCnt := preambleNext .waitStop (interval s.cfg s.time0 (sampleNow s.cfg ts)) s.preambleCnt
        time0 := sampleNow s.cfg ts } ∧
    exec (.edge false ts) s = .next
      { s with
        rxs := .gathering
        preambleCnt := preambleNext .waitStop (interval s.cfg s.time0 (sampleNow s.cfg ts)) s.preambleCnt
        count0 := if s.active = .b0 then 0 else s.count0
        count1 := if s.active = .b1 then 0 else s.count1
        endSeen := false
        time0 := sampleNow s.cfg ts
        up := s.up ++ [.frameStart] }

/-- R105: the preamble counter after a processed edge that completes: counted or reset in the four
scanning states after Idle, with 9..17 inside the tolerance and a cap at 64, and unchanged in Idle and
Gathering. Nothing else that the edge does depends on the counter. -/
def Obligations.PreambleCounterCountsBitPeriods : Prop :=
  ∀ (l : Bool) (ts : Stamp) (s t : State), s.fault = false → s.rxArmed = true →
    exec (.edge l ts) s = .next t →
    ((s.rxs = .high ∨ s.rxs = .low ∨ s.rxs = .checkSync1 ∨ s.rxs = .waitStop) →
      t.preambleCnt.toNat =
        if 9 ≤ (interval s.cfg s.time0 (sampleNow s.cfg ts)).toNat ∧
            (interval s.cfg s.time0 (sampleNow s.cfg ts)).toNat ≤ 17
        then min (s.preambleCnt.toNat + 1) 64 else 0) ∧
    ((s.rxs = .idle ∨ s.rxs = .gathering) → t.preambleCnt = s.preambleCnt) ∧
    ∀ c : BitVec 7, ∃ c' : BitVec 7,
      exec (.edge l ts) { s with preambleCnt := c } = .next { t with preambleCnt := c' }

/-- R103 and R104: `time0` is re-latched by a processed edge in a scanning state and by a byte boundary
that the gatherer takes, and by nothing else; `resync` is 1 exactly on those steps. -/
def Obligations.RelatchExactlyWhenResync : Prop :=
  ∀ (l : Bool) (ts : Stamp) (s t : State), exec (.edge l ts) s = .next t →
    (resync l ts s = true ↔
      s.fault = false ∧ s.rxArmed = true ∧
        ((s.rxs = .idle ∨ s.rxs = .high ∨ s.rxs = .low ∨ s.rxs = .checkSync1 ∨ s.rxs = .waitStop) ∨
         (s.rxs = .gathering ∧ l = false ∧
          130 ≤ (interval s.cfg s.time0 (sampleNow s.cfg ts)).toNat ∧
          (interval s.cfg s.time0 (sampleNow s.cfg ts)).toNat ≤ 188 ∧ t.rxs = .gathering))) ∧
    t.time0 = if resync l ts s = true then sampleNow s.cfg ts else s.time0

/-! ## Scanning -/

/-- R129: an edge in a scanning state completes, ends no frame, emits no FRAME_END and raises no fault;
it goes to a scanning state or starts a frame. -/
def Obligations.ScanningEndsNoFrame : Prop :=
  ∀ (l : Bool) (ts : Stamp) (s : State), s.fault = false → s.rxArmed = true →
    (s.rxs = .idle ∨ s.rxs = .high ∨ s.rxs = .low ∨ s.rxs = .checkSync1 ∨ s.rxs = .waitStop) →
    ∃ t, exec (.edge l ts) s = .next t ∧ t.fault = false ∧ t.faultCode = s.faultCode ∧
      t.rxArmed = true ∧ t.rxDone = s.rxDone ∧ t.endCause = s.endCause ∧
      ((t.rxs = .gathering ∧ t.up = s.up ++ [.frameStart]) ∨
       ((t.rxs = .idle ∨ t.rxs = .high ∨ t.rxs = .low ∨ t.rxs = .checkSync1 ∨ t.rxs = .waitStop) ∧
        t.up = s.up))

/-- Sync robustness, first claim: from Idle, High or Low, a rising edge, a falling edge at least 117 units
later, a rising edge 117..130 units after that and then a falling edge start a frame at that last edge
(41_sync_detector.md, derived property after its table). -/
def Obligations.SyncWordStartsFrame : Prop :=
  ∀ (s : State) (ts1 ts2 ts3 ts4 : Stamp), s.fault = false → s.rxArmed = true →
    (s.rxs = .idle ∨ s.rxs = .high ∨ s.rxs = .low) →
    117 ≤ (interval s.cfg (sampleNow s.cfg ts1) (sampleNow s.cfg ts2)).toNat →
    117 ≤ (interval s.cfg (sampleNow s.cfg ts2) (sampleNow s.cfg ts3)).toNat →
    (interval s.cfg (sampleNow s.cfg ts2) (sampleNow s.cfg ts3)).toNat ≤ 130 →
    ∃ t, runEvents [.edge true ts1, .edge false ts2, .edge true ts3, .edge false ts4] s = .next t ∧
      t.rxs = .gathering ∧ t.up = s.up ++ [.frameStart] ∧ t.active = s.active ∧
      t.count t.active = 0 ∧ t.time0 = sampleNow s.cfg ts4 ∧ t.endSeen = false

/-- Sync robustness, second claim: a run of edges in which every falling edge met in High is less than
117 units after the edge before it never leaves High and Low, and emits nothing. -/
def Obligations.ShortHighRunsNeverLeaveScanning : Prop :=
  ∀ (s : State) (es : List (Bool × Stamp)), s.fault = false → s.rxArmed = true →
    (s.rxs = .high ∨ s.rxs = .low) →
    alongRun
      (fun u i => match i with
        | .edge false ts =>
          decide (u.rxs = .high → (interval u.cfg u.time0 (sampleNow u.cfg ts)).toNat < 117)
        | _ => true)
      (es.map fun e => Instr.edge e.1 e.2) s = true →
    ∃ t, runEvents (es.map fun e => Instr.edge e.1 e.2) s = .next t ∧
      (t.rxs = .high ∨ t.rxs = .low) ∧ t.up = s.up ∧ t.rxArmed = true

/-! ## Gathering -/

/-- R145 with R150: an interval above 188 ends the frame with LOST_TOO_LONG, at every level and for every
`count`, `end_seen` and `decode_pending`, and appends nothing. -/
def Obligations.TooLongIntervalEndsFrame : Prop :=
  ∀ (l : Bool) (ts : Stamp) (s : State), s.fault = false → s.rxArmed = true → s.rxs = .gathering →
    188 < (interval s.cfg s.time0 (sampleNow s.cfg ts)).toNat →
    exec (.edge l ts) s = .next
      { s with
        rxs := .done
        endCause := .lostTooLong
        rxDone := true
        rxArmed := false
        decodePending := false
        up := s.up ++ [.frameEnd .lostTooLong] }

/-- R146 with R150: a rising edge at 130..188 ends the frame with LOST_POLARITY, for every `count`,
`end_seen` and `decode_pending`, and appends nothing. -/
def Obligations.WrongPolarityEndsFrame : Prop :=
  ∀ (ts : Stamp) (s : State), s.fault = false → s.rxArmed = true → s.rxs = .gathering →
    130 ≤ (interval s.cfg s.time0 (sampleNow s.cfg ts)).toNat →
    (interval s.cfg s.time0 (sampleNow s.cfg ts)).toNat ≤ 188 →
    exec (.edge true ts) s = .next
      { s with
        rxs := .done
        endCause := .lostPolarity
        rxDone := true
        rxArmed := false
        decodePending := false
        up := s.up ++ [.frameEnd .lostPolarity] }

/-- R147 with R150: with `end_seen` set, an edge that is neither too long nor of the wrong polarity ends
the frame with END_MARKER, whatever `count` and `decode_pending` are, and appends nothing. -/
def Obligations.EndMarkerGuardEndsFrame : Prop :=
  ∀ (l : Bool) (ts : Stamp) (s : State), s.fault = false → s.rxArmed = true → s.rxs = .gathering →
    s.endSeen = true →
    (interval s.cfg s.time0 (sampleNow s.cfg ts)).toNat ≤ 188 →
    ((interval s.cfg s.time0 (sampleNow s.cfg ts)).toNat < 130 ∨ l = false) →
    exec (.edge l ts) s = .next
      { s with
        rxs := .done
        endCause := .endMarker
        rxDone := true
        rxArmed := false
        decodePending := false
        up := s.up ++ [.frameEnd .endMarker] }

/-- R148 with R150: a byte boundary while a decode is pending ends the frame with LOST_OVERRUN, whatever
`count` is, and appends nothing. -/
def Obligations.BoundaryDuringPendingDecodeOverruns : Prop :=
  ∀ (ts : Stamp) (s : State), s.fault = false → s.rxArmed = true → s.rxs = .gathering →
    s.endSeen = false → s.decodePending = true →
    130 ≤ (interval s.cfg s.time0 (sampleNow s.cfg ts)).toNat →
    (interval s.cfg s.time0 (sampleNow s.cfg ts)).toNat ≤ 188 →
    exec (.edge false ts) s = .next
      { s with
        rxs := .done
        endCause := .lostOverrun
        rxDone := true
        rxArmed := false
        decodePending := false
        up := s.up ++ [.frameEnd .lostOverrun] }

/-- The overflow case of R149, with R55: an edge that would be the 25th entry, ordinary or boundary, ends
the frame with LOST_OVERFLOW and writes nothing. -/
def Obligations.TwentyFifthEntryOverflows : Prop :=
  ∀ (l : Bool) (ts : Stamp) (s : State), s.fault = false → s.rxArmed = true → s.rxs = .gathering →
    s.endSeen = false → s.count s.active = 24 →
    ((interval s.cfg s.time0 (sampleNow s.cfg ts)).toNat < 130 ∨
      ((interval s.cfg s.time0 (sampleNow s.cfg ts)).toNat ≤ 188 ∧ l = false ∧ s.decodePending = false)) →
    exec (.edge l ts) s = .next
      { s with
        rxs := .done
        endCause := .lostOverflow
        rxDone := true
        rxArmed := false
        decodePending := false
        up := s.up ++ [.frameEnd .lostOverflow] }

/-- R142 and the append of R149: an ordinary edge, below 130 units and of either level, is appended as
the next entry of the active buffer. The stored cell is the only one that changes, and `time0`, `active`
and `decode_pending` are not changed. -/
def Obligations.OrdinaryEdgeIsAppended : Prop :=
  ∀ (l : Bool) (ts : Stamp) (s : State), s.fault = false → s.rxArmed = true → s.rxs = .gathering →
    s.endSeen = false → (s.count s.active).toNat < 24 →
    (interval s.cfg s.time0 (sampleNow s.cfg ts)).toNat < 130 →
    ∃ m : Memory,
      exec (.edge l ts) s = .next
        { s with
          count0 := if s.active = .b0 then s.count0 + 1 else s.count0
          count1 := if s.active = .b1 then s.count1 + 1 else s.count1
          log := m } ∧
      ∀ (b : Buf) (i : Nat), i < 24 →
        logRead m b i =
          if b = s.active ∧ i = (s.count s.active).toNat
          then some (interval s.cfg s.time0 (sampleNow s.cfg ts)) else logRead s.log b i

/-- R143 and R151: a falling edge at 130..188 is a byte boundary. It is appended as the completed
buffer's last entry; the selector toggles, the new buffer is empty, a decode is requested and `time0` is
re-latched. -/
def Obligations.BoundaryHandsOverTheBuffer : Prop :=
  ∀ (ts : Stamp) (s : State), s.fault = false → s.rxArmed = true → s.rxs = .gathering →
    s.endSeen = false → s.decodePending = false → (s.count s.active).toNat < 24 →
    130 ≤ (interval s.cfg s.time0 (sampleNow s.cfg ts)).toNat →
    (interval s.cfg s.time0 (sampleNow s.cfg ts)).toNat ≤ 188 →
    ∃ m : Memory,
      exec (.edge false ts) s = .next
        { s with
          count0 := if s.active = .b0 then s.count0 + 1 else 0
          count1 := if s.active = .b1 then s.count1 + 1 else 0
          active := if s.active = .b0 then .b1 else .b0
          decodePending := true
          time0 := sampleNow s.cfg ts
          log := m } ∧
      ∀ (b : Buf) (i : Nat), i < 24 →
        logRead m b i =
          if b = s.active ∧ i = (s.count s.active).toNat
          then some (interval s.cfg s.time0 (sampleNow s.cfg ts)) else logRead s.log b i

/-- Preemption is exact: however many edges stand before the DECODE, as long as its request still stands
DECODER finds the buffer it was handed, unchanged (20_memory.md section 3, the spec's own inference). -/
def Obligations.PreemptedDecoderFindsItsBuffer : Prop :=
  ∀ (es : List (Bool × Stamp)) (s t : State), s.decodePending = true →
    runEvents (es.map fun e => Instr.edge e.1 e.2) s = .next t → t.decodePending = true →
    t.active = s.active ∧ t.count t.completed = s.count s.completed ∧
      t.completedEntries = s.completedEntries

/-! ## The decoder -/

/-- R168 (with R160): a requested DECODE commits the byte of the completed buffer's entries: `last_byte`,
`end_seen` where it is the end marker, DATA on the upward stream, and the request cleared. The log and
every other field stay. -/
def Obligations.DecodeCommitsTheByte : Prop :=
  ∀ (s : State), s.fault = false → s.decodePending = true → (s.count s.completed).toNat ≤ 24 →
    exec .decode s = .next
      { s with
        lastByte := decodeBuffer s.cfg ((List.range (s.count s.completed).toNat).map (s.entry s.completed))
        endSeen :=
          if s.cfg.endMarker =
              some (decodeBuffer s.cfg ((List.range (s.count s.completed).toNat).map (s.entry s.completed)))
          then true else s.endSeen
        decodePending := false
        up := s.up ++
          [.data (decodeBuffer s.cfg ((List.range (s.count s.completed).toNat).map (s.entry s.completed)))] }

/-- The interval walk and the closed form are one function, on every list of entries, in order or not
(43_decoder.md: the spec marks the closed form as derived from the walk). -/
def Obligations.WalkEqualsClosedForm : Prop :=
  ∀ (c : Config) (es : List Byte), decodeBuffer c es = decodeClosed c es

/-- The vote tolerates 3 units: every byte whose edges stand within 3 units of `13k`, with any boundary
entry at or above 130, decodes correctly in either bit order. And it does not tolerate 4: an example byte
with edges within 4 units decodes wrongly (43_decoder.md, derived). -/
def Obligations.VoteToleratesThreeUnits : Prop :=
  (∀ (c : Config) (x boundary : Byte) (d : Nat → Int), (∀ k, -3 ≤ d k ∧ d k ≤ 3) → 130 ≤ boundary.toNat →
    decodeBuffer c ((jitteredEdges c x d).map (fun e => BitVec.ofNat 8 e.2) ++ [boundary]) = x) ∧
  (∃ (x boundary : Byte) (d : Nat → Int), (∀ k, -4 ≤ d k ∧ d k ≤ 4) ∧ 130 ≤ boundary.toNat ∧
    decodeBuffer Config.vectors
      ((jitteredEdges Config.vectors x d).map (fun e => BitVec.ofNat 8 e.2) ++ [boundary]) ≠ x)

/-- The bit order transmit sends in is the one the decoder shifts in: a byte sent is the byte decoded
(44_transmit.md after R187's formula, 43_decoder.md R166). -/
def Obligations.SentBitsShiftIntoTheByte : Prop :=
  ∀ (c : Config) (x : Byte), (List.range 8).foldl (fun out j => shiftIn c out (dataBit c x j)) 0 = x

/-- A byte on the wire is received: in Gathering at a byte's start edge, with nothing gathered and no
decode pending, the byte's edges, each within 3 units of `13k`, a boundary 130..188 units after the start
edge and a DECODE deliver DATA of that byte, and leave the gatherer at the next byte's start edge. -/
def Obligations.ByteOnTheWireIsReceived : Prop :=
  ∀ (s : State) (x : Byte) (d : Nat → Int) (boundary : Nat),
    s.cfg.wf = true → clampBeforeAlias s.cfg = true → s.time0.toNat < 2 ^ s.cfg.width →
    s.fault = false → s.rxArmed = true → s.rxs = .gathering → s.endSeen = false →
    s.decodePending = false → s.count s.active = 0 →
    (∀ k, -3 ≤ d k ∧ d k ≤ 3) → 130 ≤ boundary → boundary ≤ 188 →
    ∃ t, runEvents
        ((jitteredEdges s.cfg x d ++ [(false, boundary)]).map (offsetEdge s.cfg s.time0) ++ [.decode]) s =
          .next t ∧
      t.up = s.up ++ [.data x] ∧ t.lastByte = x ∧ t.rxs = .gathering ∧ t.rxArmed = true ∧
      t.endSeen = decide (s.cfg.endMarker = some x) ∧ t.decodePending = false ∧
      t.active = s.completed ∧ t.count t.active = 0 ∧
      t.time0.toNat = (s.time0.toNat + boundary * 2 ^ s.cfg.clockShift) % 2 ^ s.cfg.width

/-! ## Transmit -/

/-- R180 and R181: TX_ENABLE re-initialises and arms transmit, also in mid-transmission; with receive
armed it raises EXCLUSION and changes nothing else; faulted, it changes nothing. -/
def Obligations.TxEnableArmsOrRaisesExclusion : Prop :=
  ∀ s : State,
    (s.fault = false → s.rxArmed = false →
      exec .txEnable s = .next
        { s with
          txs := .idle
          txCur := 0
          txBitsLeft := 0
          txRep := 0
          txDone := false
          txPin := true
          txArmed := true }) ∧
    (s.fault = false → s.rxArmed = true →
      exec .txEnable s = .next { s with fault := true, faultCode := .exclusion }) ∧
    (s.fault = true → exec .txEnable s = .next s)

/-- R184: TX_DISABLE disarms transmit and returns the line to idle; the cursor, `txs` and `tx_done` stay
for the host to read, and nothing is emitted. -/
def Obligations.TxDisableStopsAtOnce : Prop :=
  ∀ s : State,
    (s.fault = false → exec .txDisable s = .next { s with txArmed := false, txPin := true }) ∧
    (s.fault = true → exec .txDisable s = .next s)

/-- R186 and R187: a tick in the middle of a frame drives bit `10 - tx_bits_left` of it: the start bit
low, the data bits in `BIT_ORDER`, the stop bit high. Its answer is ignored. -/
def Obligations.TickDrivesOneBit : Prop :=
  ∀ (answer : Option Byte) (s : State), s.fault = false → s.txArmed = true → s.txs ≠ .done →
    1 ≤ s.txBitsLeft.toNat → s.txBitsLeft.toNat ≤ 10 →
    exec (.txTick answer) s = .next
      { s with
        txPin :=
          if s.txBitsLeft.toNat = 10 then false
          else if s.txBitsLeft.toNat = 1 then true
          else match s.cfg.bitOrder with
            | .lsbFirst => s.txCur.getLsbD (9 - s.txBitsLeft.toNat)
            | .msbFirst => s.txCur.getLsbD (s.txBitsLeft.toNat - 2)
        txBitsLeft := s.txBitsLeft - 1 }

/-- R185 with R182 and R188: a tick that finds no bit left loads the next byte of the sequence and drives
its start bit: preamble bytes, the sync word, the answer's bytes, trailer bytes, each phase falling
through to the next when it has nothing left. With nothing left at all it finishes: TX_DONE. -/
def Obligations.TickLoadsTheNextByte : Prop :=
  ∀ (answer : Option Byte) (s : State), s.fault = false → s.txArmed = true → s.txBitsLeft = 0 →
    -- preamble bytes
    (s.txs = .idle → 0 < s.cfg.preambleCount.toNat →
      exec (.txTick answer) s = .next
        { s with txs := .preamble, txCur := 0xAA, txRep := 1, txBitsLeft := 9, txPin := false }) ∧
    (s.txs = .preamble → s.txRep.toNat < s.cfg.preambleCount.toNat →
      exec (.txTick answer) s = .next
        { s with txCur := 0xAA, txRep := s.txRep + 1, txBitsLeft := 9, txPin := false }) ∧
    -- the sync word
    ((s.txs = .idle ∧ s.cfg.preambleCount = 0 ∨
        s.txs = .preamble ∧ s.cfg.preambleCount.toNat ≤ s.txRep.toNat) →
      exec (.txTick answer) s = .next
        { s with txs := .sync, txCur := 0xFF, txRep := 1, txBitsLeft := 9, txPin := false }) ∧
    (s.txs = .sync → s.txRep.toNat < 2 →
      exec (.txTick answer) s = .next
        { s with
          txCur := if s.txRep = 0 then 0xFF else 0x00
          txRep := s.txRep + 1
          txBitsLeft := 9
          txPin := false }) ∧
    -- a message byte
    (∀ x, answer = some x → (s.txs = .sync ∧ 2 ≤ s.txRep.toNat ∨ s.txs = .message) →
      exec (.txTick answer) s = .next
        { s with
          txs := .message
          txCur := x
          txRep := if s.txs = .sync then 0 else s.txRep
          txBitsLeft := 9
          txPin := false }) ∧
    -- trailer bytes
    (answer = none → (s.txs = .sync ∧ 2 ≤ s.txRep.toNat ∨ s.txs = .message) →
      0 < s.cfg.trailerCount.toNat →
      exec (.txTick answer) s = .next
        { s with txs := .training, txCur := 0xAA, txRep := 1, txBitsLeft := 9, txPin := false }) ∧
    (s.txs = .training → s.txRep.toNat < s.cfg.trailerCount.toNat →
      exec (.txTick answer) s = .next
        { s with txCur := 0xAA, txRep := s.txRep + 1, txBitsLeft := 9, txPin := false }) ∧
    -- the end
    (answer = none → (s.txs = .sync ∧ 2 ≤ s.txRep.toNat ∨ s.txs = .message) →
      s.cfg.trailerCount = 0 →
      exec (.txTick answer) s = .next
        { s with txs := .done, txRep := 0, txPin := true, txDone := true, up := s.up ++ [.txDone] }) ∧
    (s.txs = .training → s.cfg.trailerCount.toNat ≤ s.txRep.toNat →
      exec (.txTick answer) s = .next
        { s with txs := .done, txPin := true, txDone := true, up := s.up ++ [.txDone] })

/-- R189: a tick in Done drives the idle level and changes nothing else; there is no second TX_DONE. -/
def Obligations.TickInDoneKeepsTheLineIdle : Prop :=
  ∀ (answer : Option Byte) (s : State), s.fault = false → s.txArmed = true → s.txs = .done →
    exec (.txTick answer) s = .next { s with txPin := true }

/-- R75: a tick that does not fetch a Message byte gives the same outcome whatever answer it carries, so
it can be the canonical word 0x30000000. -/
def Obligations.AnswerIsReadOnlyByAFetch : Prop :=
  (∀ (a a' : Option Byte) (s : State), isFetchTick s = false → exec (.txTick a) s = exec (.txTick a') s) ∧
  encode (.txTick none) = 0x30000000

/-- The shape of a transmission, for any message and any preamble and trailer counts: after TX_ENABLE,
`10 * (P + 2 + m + T)` ticks drive the bits of the preamble bytes, 0xFF, 0x00, the message and the
trailer, emitting nothing, and the next tick emits TX_DONE (44_transmit.md section 3, derived). -/
def Obligations.TransmissionHasItsShape : Prop :=
  ∀ (s : State) (msg : List Byte), s.fault = false → s.rxArmed = false →
    ∃ t u v, exec .txEnable s = .next t ∧
      runTicks (10 * (s.cfg.preambleCount.toNat + 2 + msg.length + s.cfg.trailerCount.toNat)) msg t =
        some (bitStream s.cfg (transmissionBytes s.cfg msg), [], u) ∧
      u.up = s.up ∧ exec (.txTick none) u = .next v ∧
      v.up = s.up ++ [.txDone] ∧ v.txs = .done ∧ v.txDone = true ∧ v.txPin = true ∧ v.txArmed = true

/-- The round trip, with no jitter: the edges of a whole transmission of a message, with at least one
trailer byte and one bit period a bit, fed to a receiver enabled before the first edge, with a DECODE
after every boundary, give FRAME_START and DATA of every message byte in order, in these two cases. Where
the message ends with the end marker and has it nowhere earlier, FRAME_END(END_MARKER) comes next. Where
neither a message byte nor 0xAA is the end marker, every trailer byte but the last is delivered too and
the frame stays open (44_transmit.md section 3, derived). -/
def Obligations.TransmissionIsReceived : Prop :=
  ∀ (s : State) (msg : List Byte) (start : Nat),
    s.cfg.wf = true → clampBeforeAlias s.cfg = true → s.fault = false → s.txArmed = false →
    1 ≤ s.cfg.trailerCount.toNat →
    (∀ (v : Byte) (body : List Byte), s.cfg.endMarker = some v → msg = body ++ [v] → v ∉ body →
      ∃ t, runEvents (.rxEnable :: receiveEvents s.cfg start (transmissionBytes s.cfg msg)) s = .next t ∧
        t.up = s.up ++ [.frameStart] ++ msg.map .data ++ [.frameEnd .endMarker] ∧ t.rxs = .done) ∧
    (s.cfg.endMarker ≠ some 0xAA → (∀ x ∈ msg, s.cfg.endMarker ≠ some x) →
      ∃ t, runEvents (.rxEnable :: receiveEvents s.cfg start (transmissionBytes s.cfg msg)) s = .next t ∧
        t.up = s.up ++ [.frameStart] ++ msg.map .data ++
          List.replicate (s.cfg.trailerCount.toNat - 1) (.data 0xAA) ∧ t.rxs = .gathering)

/-! ## Control, registers and reset -/

/-- R210 and R211: RX_ENABLE re-initialises every receive field but the log and arms receive, also while
receiving; with transmit armed it raises EXCLUSION and changes nothing else; faulted, it changes
nothing. -/
def Obligations.RxEnableArmsOrRaisesExclusion : Prop :=
  ∀ s : State,
    (s.fault = false → s.txArmed = false →
      exec .rxEnable s = .next
        { s with
          rxs := .idle
          endCause := .none
          rxDone := false
          time0 := 0
          preambleCnt := 0
          active := .b0
          count0 := 0
          count1 := 0
          decodePending := false
          endSeen := false
          lastByte := 0
          rxArmed := true }) ∧
    (s.fault = false → s.txArmed = true →
      exec .rxEnable s = .next { s with fault := true, faultCode := .exclusion }) ∧
    (s.fault = true → exec .rxEnable s = .next s)

/-- R212: RX_DISABLE masks receive and drops the pending decode; every other field stays and nothing is
emitted. -/
def Obligations.RxDisableStopsAtOnce : Prop :=
  ∀ s : State,
    (s.fault = false → exec .rxDisable s = .next { s with rxArmed := false, decodePending := false }) ∧
    (s.fault = true → exec .rxDisable s = .next s)

/-- R214: READ_REG of a mapped number emits REG(N, View(N)) and changes nothing else, faulted or not; of
0x28..0x2F or 0x48..0xFF it raises UNMAPPED_REG, which keeps a code already recorded (R236). -/
def Obligations.ReadRegEmitsTheView : Prop :=
  ∀ (n : Byte) (s : State),
    ((n.toNat < 0x28 ∨ (0x30 ≤ n.toNat ∧ n.toNat < 0x48)) →
      ∃ v, s.view n = some v ∧ exec (.readReg n) s = .next { s with up := s.up ++ [.reg n v] }) ∧
    (((0x28 ≤ n.toNat ∧ n.toNat < 0x30) ∨ 0x48 ≤ n.toNat) →
      exec (.readReg n) s = .next
        { s with
          fault := true
          faultCode := if s.fault = true then s.faultCode else .unmappedReg })

/-- R215 and the table of R46: every register of the view, bit by bit for STATUS, byte by byte for
`time0`, and the whole of both edge buffers, whatever the counts are. Bits not listed read 0. -/
def Obligations.ViewShowsEveryField : Prop :=
  ∀ s : State,
    (∃ v, s.view 0x00 = some v ∧
      v.getLsbD 0 = s.rxArmed ∧ v.getLsbD 1 = s.txArmed ∧ v.getLsbD 2 = s.rxDone ∧
      v.getLsbD 3 = s.txDone ∧ v.getLsbD 4 = s.decodePending ∧ v.getLsbD 5 = s.endSeen ∧
      v.getLsbD 6 = decide (s.active = .b1) ∧ v.getLsbD 7 = s.fault) ∧
    s.view 0x01 = some (match s.rxs with
      | .idle => 0 | .high => 1 | .low => 2 | .checkSync1 => 3 | .waitStop => 4 | .frameStart => 5
      | .gathering => 6 | .done => 7) ∧
    s.view 0x02 = some (match s.endCause with
      | .none => 0 | .endMarker => 1 | .lostTooLong => 2 | .lostPolarity => 3 | .lostOverflow => 4
      | .lostOverrun => 5) ∧
    (∃ v, s.view 0x03 = some v ∧ v.toNat = s.preambleCnt.toNat) ∧
    (∃ v0 v1 v2, s.view 0x04 = some v0 ∧ s.view 0x05 = some v1 ∧ s.view 0x06 = some v2 ∧
      v0.toNat + 256 * v1.toNat + 65536 * v2.toNat = s.time0.toNat) ∧
    (∃ v, s.view 0x07 = some v ∧ v.toNat = s.count0.toNat) ∧
    (∃ v, s.view 0x08 = some v ∧ v.toNat = s.count1.toNat) ∧
    s.view 0x09 = some s.lastByte ∧
    s.view 0x0A = some (match s.txs with
      | .idle => 0 | .preamble => 1 | .sync => 2 | .message => 3 | .training => 4 | .done => 5) ∧
    s.view 0x0B = some s.txCur ∧
    (∃ v, s.view 0x0C = some v ∧ v.toNat = s.txBitsLeft.toNat) ∧
    s.view 0x0D = some s.txRep ∧
    s.view 0x0E = some (if s.txPin = true then 1 else 0) ∧
    s.view 0x0F = some (match s.faultCode with
      | .none => 0 | .illegalEvent => 1 | .exclusion => 2 | .unmappedReg => 3) ∧
    (∀ i < 24, s.view (BitVec.ofNat 8 (0x10 + i)) = logRead s.log .b0 i) ∧
    (∀ i < 24, s.view (BitVec.ofNat 8 (0x30 + i)) = logRead s.log .b1 i)

/-- R216 with the table of R44: RESET writes every field its reset value, faulted or not, in mid-frame and
in mid-transmission, and `up` is not changed. The model's own fields stay (log 1, log 3). -/
def Obligations.ResetWritesEveryField : Prop :=
  ∀ s : State,
    exec .reset s = .next
      { cfg := s.cfg
        trace := s.trace
        rxArmed := false
        rxs := .idle
        endCause := .none
        rxDone := false
        time0 := 0
        preambleCnt := 0
        active := .b0
        count0 := 0
        count1 := 0
        log := []
        decodePending := false
        endSeen := false
        lastByte := 0
        txArmed := false
        txs := .idle
        txCur := 0
        txBitsLeft := 0
        txRep := 0
        txPin := true
        txDone := false
        fault := false
        faultCode := .none
        up := s.up } ∧
    ∀ (b : Buf) (i : Nat), i < 24 → logRead [] b i = some 0

/-- R261 and R260: power-on is RESET. The machine's first state has the fields of R44 and is what RESET
gives from any state with its parameters and streams; STATUS reads 0 and the line is idle. -/
def Obligations.PowerOnIsReset : Prop :=
  (∀ s : State, s.cfg = State.reset.cfg → s.trace = [] → s.up = [] →
    exec .reset s = .next State.reset) ∧
  State.reset.view 0x00 = some 0 ∧ State.reset.view 0x01 = some 0 ∧ State.reset.view 0x0A = some 0 ∧
  State.reset.view 0x0E = some 1 ∧ State.reset.view 0x0F = some 0

/-- Switching direction in the right order never faults, from any state with no fault: RX_DISABLE then
TX_ENABLE arms transmit with receive disarmed, and TX_DISABLE then RX_ENABLE arms receive with transmit
disarmed (70_reset_and_hazards.md, direction switch order). -/
def Obligations.DirectionSwitchIsSafe : Prop :=
  ∀ s : State, s.fault = false →
    (∃ t, runEvents [.rxDisable, .txEnable] s = .next t ∧ t.fault = false ∧
      t.txArmed = true ∧ t.rxArmed = false ∧ t.up = s.up) ∧
    (∃ t, runEvents [.txDisable, .rxEnable] s = .next t ∧ t.fault = false ∧
      t.rxArmed = true ∧ t.txArmed = false ∧ t.up = s.up)

/-! ## Faults -/

/-- R237: while faulted, the seven other events change nothing and emit nothing, a READ_REG of a mapped
number still emits its value, a READ_REG of an unmapped number and an illegal word change nothing, and
RESET clears the fault. A faulted state is no proper end of a run. -/
def Obligations.FaultedEngineIsQuiescent : Prop :=
  ∀ s : State, s.fault = true →
    (∀ i : Instr, i ≠ .reset → (∀ n, i ≠ .readReg n) → exec i s = .next s) ∧
    (∀ n v, s.view n = some v → exec (.readReg n) s = .next { s with up := s.up ++ [.reg n v] }) ∧
    (∀ n, s.view n = none → exec (.readReg n) s = .next s) ∧
    (∀ w rest, s.trace = w :: rest → IllegalWord s.cfg w → step s = .next { s with trace := rest }) ∧
    (∃ t, exec .reset s = .next t ∧ t.fault = false ∧ t.faultCode = .none) ∧
    s.properEnd = false

/-- Over the events (an illegal word is no event): only RX_ENABLE, TX_ENABLE, READ_REG and RESET write the
fault flag or its code; nothing but RESET clears the flag or changes a recorded code; an event other than
RESET that leaves the flag clear leaves the code; and each of the three that raise a fault does so in its
own case with its own code (60_exceptions.md R236, R241). -/
def Obligations.OnlyHostCommandsWriteTheFault : Prop :=
  ∀ (i : Instr) (s t : State), exec i s = .next t →
    (i ≠ .rxEnable → i ≠ .txEnable → (∀ n, i ≠ .readReg n) → i ≠ .reset →
      t.fault = s.fault ∧ t.faultCode = s.faultCode) ∧
    (i ≠ .reset → t.fault = false → t.faultCode = s.faultCode) ∧
    (i ≠ .reset → s.fault = true → t.fault = true ∧ t.faultCode = s.faultCode) ∧
    (s.fault = false → t.fault = true →
      (i = .rxEnable ∧ s.txArmed = true ∧ t.faultCode = .exclusion) ∨
      (i = .txEnable ∧ s.rxArmed = true ∧ t.faultCode = .exclusion) ∨
      (∃ n, i = .readReg n ∧ s.view n = none ∧ t.faultCode = .unmappedReg))

/-! ## Whole-machine rules -/

/-- R42: the upward stream only grows, by at most one event a step, each kind from its own event. RESET
does not clear it. -/
def Obligations.UpwardStreamOnlyGrows : Prop :=
  ∀ (i : Instr) (s t : State), exec i s = .next t →
    t.up = s.up ∨
    (∃ e, t.up = s.up ++ [e] ∧
      match e with
      | .frameStart => i.agent = .capture
      | .data b => i.agent = .decoder ∧ t.lastByte = b
      | .frameEnd c => i.agent = .capture ∧ t.endCause = c
      | .txDone => i.agent = .txtick
      | .reg n _ => i = .readReg n)

/-- After a frame has ended (Done, disarmed, no decode pending), no run of events without RX_ENABLE and
RESET brings FRAME_START, DATA or FRAME_END: no byte of the frame follows its FRAME_END
(42_byte_gatherer.md, derived). -/
def Obligations.NoDataAfterTheFrameEnds : Prop :=
  ∀ (is : List Instr) (s t : State), s.rxs = .done → s.rxArmed = false → s.decodePending = false →
    (∀ i ∈ is, i ≠ .rxEnable ∧ i ≠ .reset) → runEvents is s = .next t →
    ∃ es : List UpEvent, t.up = s.up ++ es ∧
      ∀ e ∈ es, e = .txDone ∨ ∃ n v, e = .reg n v

/-- Each event writes its own fields and no others: the frame of every event, and the cell of the log an
EDGE may write. The parameters and the waiting events are written by none (10_state.md R47; log 1 and
log 3 for the model's own fields). -/
def Obligations.EventsWriteOnlyTheirFields : Prop :=
  ∀ (i : Instr) (s t : State), exec i s = .next t →
    match i with
    | .edge _ _ =>
      t = { s with
            rxArmed := t.rxArmed, rxs := t.rxs, endCause := t.endCause, rxDone := t.rxDone
            time0 := t.time0, preambleCnt := t.preambleCnt, active := t.active, count0 := t.count0
            count1 := t.count1, log := t.log, decodePending := t.decodePending, endSeen := t.endSeen
            up := t.up } ∧
      ∀ (b : Buf) (k : Nat), k < 24 → ¬(b = s.active ∧ k = (s.count s.active).toNat) →
        logRead t.log b k = logRead s.log b k
    | .decode =>
      t = { s with
            lastByte := t.lastByte, endSeen := t.endSeen, decodePending := t.decodePending, up := t.up }
    | .txTick _ =>
      t = { s with
            txs := t.txs, txCur := t.txCur, txBitsLeft := t.txBitsLeft, txRep := t.txRep
            txPin := t.txPin, txDone := t.txDone, up := t.up }
    | .rxEnable =>
      t = { s with
            rxArmed := t.rxArmed, rxs := t.rxs, endCause := t.endCause, rxDone := t.rxDone
            time0 := t.time0, preambleCnt := t.preambleCnt, active := t.active, count0 := t.count0
            count1 := t.count1, decodePending := t.decodePending, endSeen := t.endSeen
            lastByte := t.lastByte, fault := t.fault, faultCode := t.faultCode }
    | .rxDisable => t = { s with rxArmed := t.rxArmed, decodePending := t.decodePending }
    | .txEnable =>
      t = { s with
            txArmed := t.txArmed, txs := t.txs, txCur := t.txCur, txBitsLeft := t.txBitsLeft
            txRep := t.txRep, txPin := t.txPin, txDone := t.txDone, fault := t.fault
            faultCode := t.faultCode }
    | .txDisable => t = { s with txArmed := t.txArmed, txPin := t.txPin }
    | .readReg _ => t = { s with up := t.up, fault := t.fault, faultCode := t.faultCode }
    | .reset => t.cfg = s.cfg ∧ t.trace = s.trace ∧ t.up = s.up

/-! ## Invariants -/

/-- Every step keeps the main invariant: legal parameters, the log in canonical form, every field at a
legal value (10_state.md R46, R23, R27), receive and transmit never armed together (R45), the flags
consistent with the state machines and the fault flag with its code. -/
def Obligations.StepKeepsTheInvariant : Prop :=
  ∀ s t : State, s.Inv → step s = .next t → t.Inv

/-- R45: receive and transmit are never armed together. RESET leaves both disarmed, and every step keeps
them apart from any state where they are, the other invariants or not. -/
def Obligations.ReceiveAndTransmitAreNeverArmedTogether : Prop :=
  State.reset.Exclusive ∧ ∀ s t : State, s.Exclusive → step s = .next t → t.Exclusive

/-- The invariants hold at reset. -/
def Obligations.ResetMeetsTheInvariants : Prop :=
  State.reset.Inv ∧ State.reset.BuffersInv ∧ State.reset.EndSeenInv ∧ State.reset.CursorInv

/-- From a state of the invariant every step completes: no stop of the model is reachable, so the cases
that 41_sync_detector.md R127 and 93_implementation_defined.md I16 to I18 call impossible are. -/
def Obligations.StepNeverStops : Prop :=
  ∀ s : State, s.Inv → ∃ t, step s = .next t

/-- Every step keeps what the buffers hold while a frame is gathered: entries of the buffer being filled
lie below 130, and a buffer handed to DECODER is not empty and ends with its boundary, 130..188, its
other entries lying below 130 (42_byte_gatherer.md, 43_decoder.md corner cases). -/
def Obligations.StepKeepsTheBuffers : Prop :=
  ∀ s t : State, s.Inv → s.BuffersInv → step s = .next t → t.BuffersInv

/-- Every step keeps the meaning of `end_seen`: the last committed byte is the end marker, and no decode
is pending (10_state.md R33, 42_byte_gatherer.md R147). -/
def Obligations.StepKeepsTheEndMarkerFlag : Prop :=
  ∀ s t : State, s.EndSeenInv → step s = .next t → t.EndSeenInv

/-- Every step keeps what the byte-emission cursor holds in each phase (10_state.md R37, 44_transmit.md
R185). -/
def Obligations.StepKeepsTheCursor : Prop :=
  ∀ s t : State, s.CursorInv → step s = .next t → t.CursorInv
end

