-- ==== Sys2Proof/Laws/Memory.lean ====
section
/-! SUPPORT. The laws of the edge log: a read after a write, the canonical form, and addresses. -/

namespace Sys2Proof.Machine

@[simp] theorem Memory.readCell_nil (a : Nat) : Memory.readCell [] a = unlisted := rfl

theorem Memory.readCell_cons (p : Host.Cell) (m : Memory) (a : Nat) :
    Memory.readCell (p :: m) a = if p.1 = a then p.2 else Memory.readCell m a := rfl

theorem Memory.readCell_dropCell (m : Memory) (a k : Nat) :
    (m.dropCell a).readCell k = if k = a then unlisted else m.readCell k := by
  induction m with
  | nil => simp [Memory.dropCell]
  | cons p m ih =>
    by_cases h : p.1 = a
    · have : Memory.dropCell (p :: m) a = Memory.dropCell m a := by simp [Memory.dropCell, h]
      rw [this, ih, Memory.readCell_cons, h]
      by_cases hk : k = a
      · simp [hk]
      · rw [if_neg hk, if_neg hk, if_neg (fun e => hk e.symm)]
    · have : Memory.dropCell (p :: m) a = p :: Memory.dropCell m a := by simp [Memory.dropCell, h]
      rw [this, Memory.readCell_cons, Memory.readCell_cons, ih]
      by_cases hk : p.1 = k
      · rw [if_pos hk, if_pos hk, if_neg (fun e => h (hk.trans e))]
      · rw [if_neg hk, if_neg hk]

/-- Reading a memory with one cell inserted, where no cell had its address. -/
theorem Memory.readCell_placeCell (m : Memory) (a : Nat) (v : Byte) (k : Nat) (h : ∀ p ∈ m, p.1 ≠ a) :
    (Memory.placeCell m a v).readCell k = if k = a then v else m.readCell k := by
  induction m with
  | nil => simp only [Memory.placeCell, Memory.readCell_cons, eq_comm]
  | cons p m ih =>
    have hp : p.1 ≠ a := h p (by simp)
    have ih := ih (fun q hq => h q (by simp [hq]))
    unfold Memory.placeCell
    split
    · simp only [Memory.readCell_cons, eq_comm]
    · simp only [Memory.readCell_cons, ih]
      by_cases hk : p.1 = k
      · rw [if_pos hk, if_pos hk, if_neg (fun e => hp (hk.trans e))]
      · rw [if_neg hk, if_neg hk]

theorem Memory.ne_of_mem_dropCell {m : Memory} {a : Nat} {p : Host.Cell} (h : p ∈ m.dropCell a) : p.1 ≠ a := by
  simpa using (List.mem_filter.1 h).2

/-- A read after a write: the written cell gives the value, every other cell is as before. -/
theorem Memory.readCell_writeCell (m : Memory) (a : Nat) (v : Byte) (k : Nat) :
    (m.writeCell a v).readCell k = if k = a then v else m.readCell k := by
  unfold Memory.writeCell
  split
  · next h => rw [Memory.readCell_dropCell, h]
  · rw [Memory.readCell_placeCell _ _ _ _ (fun p hp => Memory.ne_of_mem_dropCell hp), Memory.readCell_dropCell]
    by_cases hk : k = a <;> simp [hk]

/-- What the canonical form says. -/
theorem Memory.wf_iff (m : Memory) :
    m.wf = true ↔ m.Pairwise (fun p q => p.1 < q.1) ∧ ∀ p ∈ m, p.2 ≠ unlisted ∧ p.1 < 2 * edgeCap := by
  simp [Memory.wf]

theorem Memory.mem_placeCell {m : Memory} {a : Nat} {v : Byte} {p : Host.Cell} (h : p ∈ Memory.placeCell m a v) :
    p = (a, v) ∨ p ∈ m := by
  induction m with
  | nil => exact .inl (by simpa [Memory.placeCell] using h)
  | cons q m ih =>
    unfold Memory.placeCell at h
    split at h
    · simpa using h
    · rcases List.mem_cons.1 h with rfl | h
      · simp
      · rcases ih h with rfl | h <;> simp [*]

theorem Memory.placeCell_sorted {m : Memory} {a : Nat} (v : Byte)
    (hs : m.Pairwise (fun p q => p.1 < q.1)) (hn : ∀ p ∈ m, p.1 ≠ a) :
    (Memory.placeCell m a v).Pairwise (fun p q => p.1 < q.1) := by
  induction m with
  | nil => simp [Memory.placeCell]
  | cons q m ih =>
    obtain ⟨hq, hs'⟩ := List.pairwise_cons.1 hs
    unfold Memory.placeCell
    split
    · next h =>
      refine List.pairwise_cons.2 ⟨fun p hp => ?_, hs⟩
      rcases List.mem_cons.1 hp with rfl | hp
      · exact h
      · exact lt_trans h (hq p hp)
    · next h =>
      have hqa : q.1 < a := lt_of_le_of_ne (not_lt.1 h) (hn q (by simp))
      refine List.pairwise_cons.2 ⟨fun p hp => ?_, ih hs' (fun p hp => hn p (by simp [hp]))⟩
      rcases Memory.mem_placeCell hp with rfl | hp
      · exact hqa
      · exact hq p hp

theorem Memory.wf_nil : Memory.wf [] = true := by decide

/-- Every write keeps the canonical form. -/
theorem Memory.wf_writeCell {m : Memory} (h : m.wf = true) {a : Nat} (ha : a < 2 * edgeCap) (v : Byte) :
    (m.writeCell a v).wf = true := by
  obtain ⟨hs, hv⟩ := (Memory.wf_iff m).1 h
  have hs' : (m.dropCell a).Pairwise (fun p q => p.1 < q.1) := hs.filter _
  have hv' : ∀ p ∈ m.dropCell a, p.2 ≠ unlisted ∧ p.1 < 2 * edgeCap := fun p hp => hv p (List.mem_filter.1 hp).1
  unfold Memory.writeCell
  split
  · exact (Memory.wf_iff _).2 ⟨hs', hv'⟩
  · next hne =>
    refine (Memory.wf_iff _).2 ⟨Memory.placeCell_sorted v hs' (fun p hp => Memory.ne_of_mem_dropCell hp), ?_⟩
    intro p hp
    rcases Memory.mem_placeCell hp with rfl | hp
    · exact ⟨hne, ha⟩
    · exact hv' p hp

theorem Memory.readCell_eq_of_mem {m : Memory} (hs : m.Pairwise (fun p q => p.1 < q.1)) {p : Host.Cell} (h : p ∈ m) :
    m.readCell p.1 = p.2 := by
  induction m with
  | nil => simp at h
  | cons q m ih =>
    obtain ⟨hq, hs'⟩ := List.pairwise_cons.1 hs
    rcases List.mem_cons.1 h with rfl | h
    · simp [Memory.readCell_cons]
    · rw [Memory.readCell_cons, if_neg (ne_of_lt (hq p h)), ih hs' h]

theorem Memory.mem_of_readCell_ne {m : Memory} {a : Nat} (h : m.readCell a ≠ unlisted) : (a, m.readCell a) ∈ m := by
  induction m with
  | nil => simp at h
  | cons q m ih =>
    rw [Memory.readCell_cons] at h ⊢
    split
    · next e => simp [← e]
    · next e => rw [if_neg e] at h; exact List.mem_cons_of_mem _ (ih h)

/-- Two memories in canonical form that read alike everywhere are the same data. -/
theorem Memory.ext_of_wf {m m' : Memory} (h : m.wf = true) (h' : m'.wf = true)
    (he : ∀ a, m.readCell a = m'.readCell a) : m = m' := by
  obtain ⟨hs, hv⟩ := (Memory.wf_iff m).1 h
  obtain ⟨hs', hv'⟩ := (Memory.wf_iff m').1 h'
  have key : ∀ {m m' : Memory}, m.Pairwise (fun p q => p.1 < q.1) → (∀ p ∈ m, p.2 ≠ unlisted ∧ p.1 < 2 * edgeCap) →
      (∀ a, m.readCell a = m'.readCell a) → ∀ p ∈ m, p ∈ m' := by
    intro m m' hs hv he p hp
    have hg := Memory.readCell_eq_of_mem hs hp
    have : (p.1, m'.readCell p.1) ∈ m' := Memory.mem_of_readCell_ne (by rw [← he, hg]; exact (hv p hp).1)
    rw [← he, hg] at this
    exact this
  refine List.Perm.eq_of_pairwise' (r := fun p q : Host.Cell => p.1 < q.1) hs hs'
    ((List.perm_ext_iff_of_nodup ?_ ?_).2 fun p =>
      ⟨key hs hv he p, key hs' hv' (fun a => (he a).symm) p⟩)
  · exact hs.imp (fun h e => absurd h (by simp [e]))
  · exact hs'.imp (fun h e => absurd h (by simp [e]))

/-! ## The log's addresses -/

theorem logAddr_lt {b : Buf} {i : Nat} (h : i < edgeCap) : logAddr b i < 2 * edgeCap := by
  cases b <;> simp only [logAddr, Buf.toNat, edgeCap] at * <;> omega

/-- No two entries share a cell. -/
theorem logAddr_inj {b b' : Buf} {i j : Nat} (hi : i < edgeCap) (hj : j < edgeCap) :
    logAddr b i = logAddr b' j ↔ b = b' ∧ i = j := by
  cases b <;> cases b' <;> simp [logAddr, Buf.toNat, edgeCap] at * <;> omega

theorem logRead_eq_some {m : Memory} {b : Buf} {i : Nat} (h : i < edgeCap) :
    logRead m b i = some (m.readCell (logAddr b i)) := by simp [logRead, h]

theorem logRead_eq_none {m : Memory} {b : Buf} {i : Nat} (h : ¬i < edgeCap) : logRead m b i = none := by
  simp [logRead, h]

/-- Everything MemWrite can do (R9, R50). -/
theorem logWrite_eq_some_iff {m t : Memory} {b : Buf} {i : Nat} {v : Byte} :
    logWrite m b i v = some t ↔ i < edgeCap ∧ t = m.writeCell (logAddr b i) v := by
  unfold logWrite
  split <;> simp_all [eq_comm]

/-- A MemRead after a MemWrite. -/
theorem logRead_logWrite {m t : Memory} {b : Buf} {i : Nat} {v : Byte} (h : logWrite m b i v = some t)
    (b' : Buf) {j : Nat} (hj : j < edgeCap) :
    logRead t b' j = if b' = b ∧ j = i then some v else logRead m b' j := by
  obtain ⟨hi, rfl⟩ := logWrite_eq_some_iff.1 h
  rw [logRead_eq_some hj, logRead_eq_some hj, Memory.readCell_writeCell]
  by_cases e : b' = b ∧ j = i
  · rw [if_pos e, if_pos ((logAddr_inj hj hi).2 e)]
  · rw [if_neg e, if_neg (fun h => e ((logAddr_inj hj hi).1 h))]

/-- MemWrite keeps the canonical form. -/
theorem logWrite_wf {m t : Memory} {b : Buf} {i : Nat} {v : Byte} (hm : m.wf = true)
    (h : logWrite m b i v = some t) : t.wf = true := by
  obtain ⟨hi, rfl⟩ := logWrite_eq_some_iff.1 h
  exact Memory.wf_writeCell hm (logAddr_lt hi) v

/-- Everything the read of a buffer's entries can give. -/
theorem logEntries_eq_some_iff {m : Memory} {b : Buf} {n : Nat} {es : List Byte} :
    logEntries m b n = some es ↔ n ≤ edgeCap ∧ es = (List.range n).map (fun i => m.readCell (logAddr b i)) := by
  unfold logEntries
  split <;> simp_all [eq_comm]

/-- A buffer's entries depend on its own cells only. -/
theorem logEntries_congr {m m' : Memory} {b : Buf} {n : Nat}
    (h : ∀ i < n, m.readCell (logAddr b i) = m'.readCell (logAddr b i)) : logEntries m b n = logEntries m' b n := by
  unfold logEntries
  split
  · refine congrArg some (List.map_congr_left fun i hi => h i (List.mem_range.1 hi))
  · rfl

end Sys2Proof.Machine
end

