-- ==== Sys2Proof/Laws/State.lean ====
section
/-! SUPPORT. One lemma for each field and each named update of the state, so that no later proof unfolds a
record update. -/

namespace Sys2Proof.Machine

variable (s : State)

@[simp] theorem State.preambleUpdate_cfg (iv : Byte) : (s.preambleUpdate iv).cfg = s.cfg := rfl
@[simp] theorem State.preambleUpdate_trace (iv : Byte) : (s.preambleUpdate iv).trace = s.trace := rfl
@[simp] theorem State.preambleUpdate_rxArmed (iv : Byte) : (s.preambleUpdate iv).rxArmed = s.rxArmed := rfl
@[simp] theorem State.preambleUpdate_rxs (iv : Byte) : (s.preambleUpdate iv).rxs = s.rxs := rfl
@[simp] theorem State.preambleUpdate_endCause (iv : Byte) : (s.preambleUpdate iv).endCause = s.endCause := rfl
@[simp] theorem State.preambleUpdate_rxDone (iv : Byte) : (s.preambleUpdate iv).rxDone = s.rxDone := rfl
@[simp] theorem State.preambleUpdate_time0 (iv : Byte) : (s.preambleUpdate iv).time0 = s.time0 := rfl
@[simp] theorem State.preambleUpdate_preambleCnt (iv : Byte) : (s.preambleUpdate iv).preambleCnt = preambleNext s.rxs iv s.preambleCnt := rfl
@[simp] theorem State.preambleUpdate_active (iv : Byte) : (s.preambleUpdate iv).active = s.active := rfl
@[simp] theorem State.preambleUpdate_count0 (iv : Byte) : (s.preambleUpdate iv).count0 = s.count0 := rfl
@[simp] theorem State.preambleUpdate_count1 (iv : Byte) : (s.preambleUpdate iv).count1 = s.count1 := rfl
@[simp] theorem State.preambleUpdate_log (iv : Byte) : (s.preambleUpdate iv).log = s.log := rfl
@[simp] theorem State.preambleUpdate_decodePending (iv : Byte) : (s.preambleUpdate iv).decodePending = s.decodePending := rfl
@[simp] theorem State.preambleUpdate_endSeen (iv : Byte) : (s.preambleUpdate iv).endSeen = s.endSeen := rfl
@[simp] theorem State.preambleUpdate_lastByte (iv : Byte) : (s.preambleUpdate iv).lastByte = s.lastByte := rfl
@[simp] theorem State.preambleUpdate_txArmed (iv : Byte) : (s.preambleUpdate iv).txArmed = s.txArmed := rfl
@[simp] theorem State.preambleUpdate_txs (iv : Byte) : (s.preambleUpdate iv).txs = s.txs := rfl
@[simp] theorem State.preambleUpdate_txCur (iv : Byte) : (s.preambleUpdate iv).txCur = s.txCur := rfl
@[simp] theorem State.preambleUpdate_txBitsLeft (iv : Byte) : (s.preambleUpdate iv).txBitsLeft = s.txBitsLeft := rfl
@[simp] theorem State.preambleUpdate_txRep (iv : Byte) : (s.preambleUpdate iv).txRep = s.txRep := rfl
@[simp] theorem State.preambleUpdate_txPin (iv : Byte) : (s.preambleUpdate iv).txPin = s.txPin := rfl
@[simp] theorem State.preambleUpdate_txDone (iv : Byte) : (s.preambleUpdate iv).txDone = s.txDone := rfl
@[simp] theorem State.preambleUpdate_fault (iv : Byte) : (s.preambleUpdate iv).fault = s.fault := rfl
@[simp] theorem State.preambleUpdate_faultCode (iv : Byte) : (s.preambleUpdate iv).faultCode = s.faultCode := rfl
@[simp] theorem State.preambleUpdate_up (iv : Byte) : (s.preambleUpdate iv).up = s.up := rfl

@[simp] theorem State.scanTo_cfg (r : RxState) (now : Stamp) : (s.scanTo r now).cfg = s.cfg := rfl
@[simp] theorem State.scanTo_trace (r : RxState) (now : Stamp) : (s.scanTo r now).trace = s.trace := rfl
@[simp] theorem State.scanTo_rxArmed (r : RxState) (now : Stamp) : (s.scanTo r now).rxArmed = s.rxArmed := rfl
@[simp] theorem State.scanTo_rxs (r : RxState) (now : Stamp) : (s.scanTo r now).rxs = r := rfl
@[simp] theorem State.scanTo_endCause (r : RxState) (now : Stamp) : (s.scanTo r now).endCause = s.endCause := rfl
@[simp] theorem State.scanTo_rxDone (r : RxState) (now : Stamp) : (s.scanTo r now).rxDone = s.rxDone := rfl
@[simp] theorem State.scanTo_time0 (r : RxState) (now : Stamp) : (s.scanTo r now).time0 = now := rfl
@[simp] theorem State.scanTo_preambleCnt (r : RxState) (now : Stamp) : (s.scanTo r now).preambleCnt = s.preambleCnt := rfl
@[simp] theorem State.scanTo_active (r : RxState) (now : Stamp) : (s.scanTo r now).active = s.active := rfl
@[simp] theorem State.scanTo_count0 (r : RxState) (now : Stamp) : (s.scanTo r now).count0 = s.count0 := rfl
@[simp] theorem State.scanTo_count1 (r : RxState) (now : Stamp) : (s.scanTo r now).count1 = s.count1 := rfl
@[simp] theorem State.scanTo_log (r : RxState) (now : Stamp) : (s.scanTo r now).log = s.log := rfl
@[simp] theorem State.scanTo_decodePending (r : RxState) (now : Stamp) : (s.scanTo r now).decodePending = s.decodePending := rfl
@[simp] theorem State.scanTo_endSeen (r : RxState) (now : Stamp) : (s.scanTo r now).endSeen = s.endSeen := rfl
@[simp] theorem State.scanTo_lastByte (r : RxState) (now : Stamp) : (s.scanTo r now).lastByte = s.lastByte := rfl
@[simp] theorem State.scanTo_txArmed (r : RxState) (now : Stamp) : (s.scanTo r now).txArmed = s.txArmed := rfl
@[simp] theorem State.scanTo_txs (r : RxState) (now : Stamp) : (s.scanTo r now).txs = s.txs := rfl
@[simp] theorem State.scanTo_txCur (r : RxState) (now : Stamp) : (s.scanTo r now).txCur = s.txCur := rfl
@[simp] theorem State.scanTo_txBitsLeft (r : RxState) (now : Stamp) : (s.scanTo r now).txBitsLeft = s.txBitsLeft := rfl
@[simp] theorem State.scanTo_txRep (r : RxState) (now : Stamp) : (s.scanTo r now).txRep = s.txRep := rfl
@[simp] theorem State.scanTo_txPin (r : RxState) (now : Stamp) : (s.scanTo r now).txPin = s.txPin := rfl
@[simp] theorem State.scanTo_txDone (r : RxState) (now : Stamp) : (s.scanTo r now).txDone = s.txDone := rfl
@[simp] theorem State.scanTo_fault (r : RxState) (now : Stamp) : (s.scanTo r now).fault = s.fault := rfl
@[simp] theorem State.scanTo_faultCode (r : RxState) (now : Stamp) : (s.scanTo r now).faultCode = s.faultCode := rfl
@[simp] theorem State.scanTo_up (r : RxState) (now : Stamp) : (s.scanTo r now).up = s.up := rfl

@[simp] theorem State.setCount_cfg (b : Buf) (v : BitVec 5) : (s.setCount b v).cfg = s.cfg := rfl
@[simp] theorem State.setCount_trace (b : Buf) (v : BitVec 5) : (s.setCount b v).trace = s.trace := rfl
@[simp] theorem State.setCount_rxArmed (b : Buf) (v : BitVec 5) : (s.setCount b v).rxArmed = s.rxArmed := rfl
@[simp] theorem State.setCount_rxs (b : Buf) (v : BitVec 5) : (s.setCount b v).rxs = s.rxs := rfl
@[simp] theorem State.setCount_endCause (b : Buf) (v : BitVec 5) : (s.setCount b v).endCause = s.endCause := rfl
@[simp] theorem State.setCount_rxDone (b : Buf) (v : BitVec 5) : (s.setCount b v).rxDone = s.rxDone := rfl
@[simp] theorem State.setCount_time0 (b : Buf) (v : BitVec 5) : (s.setCount b v).time0 = s.time0 := rfl
@[simp] theorem State.setCount_preambleCnt (b : Buf) (v : BitVec 5) : (s.setCount b v).preambleCnt = s.preambleCnt := rfl
@[simp] theorem State.setCount_active (b : Buf) (v : BitVec 5) : (s.setCount b v).active = s.active := rfl
@[simp] theorem State.setCount_count0 (b : Buf) (v : BitVec 5) : (s.setCount b v).count0 = if b = .b0 then v else s.count0 := rfl
@[simp] theorem State.setCount_count1 (b : Buf) (v : BitVec 5) : (s.setCount b v).count1 = if b = .b1 then v else s.count1 := rfl
@[simp] theorem State.setCount_log (b : Buf) (v : BitVec 5) : (s.setCount b v).log = s.log := rfl
@[simp] theorem State.setCount_decodePending (b : Buf) (v : BitVec 5) : (s.setCount b v).decodePending = s.decodePending := rfl
@[simp] theorem State.setCount_endSeen (b : Buf) (v : BitVec 5) : (s.setCount b v).endSeen = s.endSeen := rfl
@[simp] theorem State.setCount_lastByte (b : Buf) (v : BitVec 5) : (s.setCount b v).lastByte = s.lastByte := rfl
@[simp] theorem State.setCount_txArmed (b : Buf) (v : BitVec 5) : (s.setCount b v).txArmed = s.txArmed := rfl
@[simp] theorem State.setCount_txs (b : Buf) (v : BitVec 5) : (s.setCount b v).txs = s.txs := rfl
@[simp] theorem State.setCount_txCur (b : Buf) (v : BitVec 5) : (s.setCount b v).txCur = s.txCur := rfl
@[simp] theorem State.setCount_txBitsLeft (b : Buf) (v : BitVec 5) : (s.setCount b v).txBitsLeft = s.txBitsLeft := rfl
@[simp] theorem State.setCount_txRep (b : Buf) (v : BitVec 5) : (s.setCount b v).txRep = s.txRep := rfl
@[simp] theorem State.setCount_txPin (b : Buf) (v : BitVec 5) : (s.setCount b v).txPin = s.txPin := rfl
@[simp] theorem State.setCount_txDone (b : Buf) (v : BitVec 5) : (s.setCount b v).txDone = s.txDone := rfl
@[simp] theorem State.setCount_fault (b : Buf) (v : BitVec 5) : (s.setCount b v).fault = s.fault := rfl
@[simp] theorem State.setCount_faultCode (b : Buf) (v : BitVec 5) : (s.setCount b v).faultCode = s.faultCode := rfl
@[simp] theorem State.setCount_up (b : Buf) (v : BitVec 5) : (s.setCount b v).up = s.up := rfl

@[simp] theorem State.startFrame_cfg (now : Stamp) : (s.startFrame now).cfg = s.cfg := rfl
@[simp] theorem State.startFrame_trace (now : Stamp) : (s.startFrame now).trace = s.trace := rfl
@[simp] theorem State.startFrame_rxArmed (now : Stamp) : (s.startFrame now).rxArmed = s.rxArmed := rfl
@[simp] theorem State.startFrame_rxs (now : Stamp) : (s.startFrame now).rxs = .gathering := rfl
@[simp] theorem State.startFrame_endCause (now : Stamp) : (s.startFrame now).endCause = s.endCause := rfl
@[simp] theorem State.startFrame_rxDone (now : Stamp) : (s.startFrame now).rxDone = s.rxDone := rfl
@[simp] theorem State.startFrame_time0 (now : Stamp) : (s.startFrame now).time0 = now := rfl
@[simp] theorem State.startFrame_preambleCnt (now : Stamp) : (s.startFrame now).preambleCnt = s.preambleCnt := rfl
@[simp] theorem State.startFrame_active (now : Stamp) : (s.startFrame now).active = s.active := rfl
@[simp] theorem State.startFrame_count0 (now : Stamp) : (s.startFrame now).count0 = if s.active = .b0 then 0 else s.count0 := rfl
@[simp] theorem State.startFrame_count1 (now : Stamp) : (s.startFrame now).count1 = if s.active = .b1 then 0 else s.count1 := rfl
@[simp] theorem State.startFrame_log (now : Stamp) : (s.startFrame now).log = s.log := rfl
@[simp] theorem State.startFrame_decodePending (now : Stamp) : (s.startFrame now).decodePending = s.decodePending := rfl
@[simp] theorem State.startFrame_endSeen (now : Stamp) : (s.startFrame now).endSeen = false := rfl
@[simp] theorem State.startFrame_lastByte (now : Stamp) : (s.startFrame now).lastByte = s.lastByte := rfl
@[simp] theorem State.startFrame_txArmed (now : Stamp) : (s.startFrame now).txArmed = s.txArmed := rfl
@[simp] theorem State.startFrame_txs (now : Stamp) : (s.startFrame now).txs = s.txs := rfl
@[simp] theorem State.startFrame_txCur (now : Stamp) : (s.startFrame now).txCur = s.txCur := rfl
@[simp] theorem State.startFrame_txBitsLeft (now : Stamp) : (s.startFrame now).txBitsLeft = s.txBitsLeft := rfl
@[simp] theorem State.startFrame_txRep (now : Stamp) : (s.startFrame now).txRep = s.txRep := rfl
@[simp] theorem State.startFrame_txPin (now : Stamp) : (s.startFrame now).txPin = s.txPin := rfl
@[simp] theorem State.startFrame_txDone (now : Stamp) : (s.startFrame now).txDone = s.txDone := rfl
@[simp] theorem State.startFrame_fault (now : Stamp) : (s.startFrame now).fault = s.fault := rfl
@[simp] theorem State.startFrame_faultCode (now : Stamp) : (s.startFrame now).faultCode = s.faultCode := rfl
@[simp] theorem State.startFrame_up (now : Stamp) : (s.startFrame now).up = s.up ++ [.frameStart] := rfl

@[simp] theorem State.emit_cfg (e : UpEvent) : (s.emit e).cfg = s.cfg := rfl
@[simp] theorem State.emit_trace (e : UpEvent) : (s.emit e).trace = s.trace := rfl
@[simp] theorem State.emit_rxArmed (e : UpEvent) : (s.emit e).rxArmed = s.rxArmed := rfl
@[simp] theorem State.emit_rxs (e : UpEvent) : (s.emit e).rxs = s.rxs := rfl
@[simp] theorem State.emit_endCause (e : UpEvent) : (s.emit e).endCause = s.endCause := rfl
@[simp] theorem State.emit_rxDone (e : UpEvent) : (s.emit e).rxDone = s.rxDone := rfl
@[simp] theorem State.emit_time0 (e : UpEvent) : (s.emit e).time0 = s.time0 := rfl
@[simp] theorem State.emit_preambleCnt (e : UpEvent) : (s.emit e).preambleCnt = s.preambleCnt := rfl
@[simp] theorem State.emit_active (e : UpEvent) : (s.emit e).active = s.active := rfl
@[simp] theorem State.emit_count0 (e : UpEvent) : (s.emit e).count0 = s.count0 := rfl
@[simp] theorem State.emit_count1 (e : UpEvent) : (s.emit e).count1 = s.count1 := rfl
@[simp] theorem State.emit_log (e : UpEvent) : (s.emit e).log = s.log := rfl
@[simp] theorem State.emit_decodePending (e : UpEvent) : (s.emit e).decodePending = s.decodePending := rfl
@[simp] theorem State.emit_endSeen (e : UpEvent) : (s.emit e).endSeen = s.endSeen := rfl
@[simp] theorem State.emit_lastByte (e : UpEvent) : (s.emit e).lastByte = s.lastByte := rfl
@[simp] theorem State.emit_txArmed (e : UpEvent) : (s.emit e).txArmed = s.txArmed := rfl
@[simp] theorem State.emit_txs (e : UpEvent) : (s.emit e).txs = s.txs := rfl
@[simp] theorem State.emit_txCur (e : UpEvent) : (s.emit e).txCur = s.txCur := rfl
@[simp] theorem State.emit_txBitsLeft (e : UpEvent) : (s.emit e).txBitsLeft = s.txBitsLeft := rfl
@[simp] theorem State.emit_txRep (e : UpEvent) : (s.emit e).txRep = s.txRep := rfl
@[simp] theorem State.emit_txPin (e : UpEvent) : (s.emit e).txPin = s.txPin := rfl
@[simp] theorem State.emit_txDone (e : UpEvent) : (s.emit e).txDone = s.txDone := rfl
@[simp] theorem State.emit_fault (e : UpEvent) : (s.emit e).fault = s.fault := rfl
@[simp] theorem State.emit_faultCode (e : UpEvent) : (s.emit e).faultCode = s.faultCode := rfl
@[simp] theorem State.emit_up (e : UpEvent) : (s.emit e).up = s.up ++ [e] := rfl

@[simp] theorem State.raiseFault_cfg (k : FaultCode) : (s.raiseFault k).cfg = s.cfg := rfl
@[simp] theorem State.raiseFault_trace (k : FaultCode) : (s.raiseFault k).trace = s.trace := rfl
@[simp] theorem State.raiseFault_rxArmed (k : FaultCode) : (s.raiseFault k).rxArmed = s.rxArmed := rfl
@[simp] theorem State.raiseFault_rxs (k : FaultCode) : (s.raiseFault k).rxs = s.rxs := rfl
@[simp] theorem State.raiseFault_endCause (k : FaultCode) : (s.raiseFault k).endCause = s.endCause := rfl
@[simp] theorem State.raiseFault_rxDone (k : FaultCode) : (s.raiseFault k).rxDone = s.rxDone := rfl
@[simp] theorem State.raiseFault_time0 (k : FaultCode) : (s.raiseFault k).time0 = s.time0 := rfl
@[simp] theorem State.raiseFault_preambleCnt (k : FaultCode) : (s.raiseFault k).preambleCnt = s.preambleCnt := rfl
@[simp] theorem State.raiseFault_active (k : FaultCode) : (s.raiseFault k).active = s.active := rfl
@[simp] theorem State.raiseFault_count0 (k : FaultCode) : (s.raiseFault k).count0 = s.count0 := rfl
@[simp] theorem State.raiseFault_count1 (k : FaultCode) : (s.raiseFault k).count1 = s.count1 := rfl
@[simp] theorem State.raiseFault_log (k : FaultCode) : (s.raiseFault k).log = s.log := rfl
@[simp] theorem State.raiseFault_decodePending (k : FaultCode) : (s.raiseFault k).decodePending = s.decodePending := rfl
@[simp] theorem State.raiseFault_endSeen (k : FaultCode) : (s.raiseFault k).endSeen = s.endSeen := rfl
@[simp] theorem State.raiseFault_lastByte (k : FaultCode) : (s.raiseFault k).lastByte = s.lastByte := rfl
@[simp] theorem State.raiseFault_txArmed (k : FaultCode) : (s.raiseFault k).txArmed = s.txArmed := rfl
@[simp] theorem State.raiseFault_txs (k : FaultCode) : (s.raiseFault k).txs = s.txs := rfl
@[simp] theorem State.raiseFault_txCur (k : FaultCode) : (s.raiseFault k).txCur = s.txCur := rfl
@[simp] theorem State.raiseFault_txBitsLeft (k : FaultCode) : (s.raiseFault k).txBitsLeft = s.txBitsLeft := rfl
@[simp] theorem State.raiseFault_txRep (k : FaultCode) : (s.raiseFault k).txRep = s.txRep := rfl
@[simp] theorem State.raiseFault_txPin (k : FaultCode) : (s.raiseFault k).txPin = s.txPin := rfl
@[simp] theorem State.raiseFault_txDone (k : FaultCode) : (s.raiseFault k).txDone = s.txDone := rfl
@[simp] theorem State.raiseFault_fault (k : FaultCode) : (s.raiseFault k).fault = true := rfl
@[simp] theorem State.raiseFault_faultCode (k : FaultCode) : (s.raiseFault k).faultCode = if s.fault then s.faultCode else k := rfl
@[simp] theorem State.raiseFault_up (k : FaultCode) : (s.raiseFault k).up = s.up := rfl

@[simp] theorem State.terminate_cfg (c : EndCause) : (s.terminate c).cfg = s.cfg := rfl
@[simp] theorem State.terminate_trace (c : EndCause) : (s.terminate c).trace = s.trace := rfl
@[simp] theorem State.terminate_rxArmed (c : EndCause) : (s.terminate c).rxArmed = false := rfl
@[simp] theorem State.terminate_rxs (c : EndCause) : (s.terminate c).rxs = .done := rfl
@[simp] theorem State.terminate_endCause (c : EndCause) : (s.terminate c).endCause = c := rfl
@[simp] theorem State.terminate_rxDone (c : EndCause) : (s.terminate c).rxDone = true := rfl
@[simp] theorem State.terminate_time0 (c : EndCause) : (s.terminate c).time0 = s.time0 := rfl
@[simp] theorem State.terminate_preambleCnt (c : EndCause) : (s.terminate c).preambleCnt = s.preambleCnt := rfl
@[simp] theorem State.terminate_active (c : EndCause) : (s.terminate c).active = s.active := rfl
@[simp] theorem State.terminate_count0 (c : EndCause) : (s.terminate c).count0 = s.count0 := rfl
@[simp] theorem State.terminate_count1 (c : EndCause) : (s.terminate c).count1 = s.count1 := rfl
@[simp] theorem State.terminate_log (c : EndCause) : (s.terminate c).log = s.log := rfl
@[simp] theorem State.terminate_decodePending (c : EndCause) : (s.terminate c).decodePending = false := rfl
@[simp] theorem State.terminate_endSeen (c : EndCause) : (s.terminate c).endSeen = s.endSeen := rfl
@[simp] theorem State.terminate_lastByte (c : EndCause) : (s.terminate c).lastByte = s.lastByte := rfl
@[simp] theorem State.terminate_txArmed (c : EndCause) : (s.terminate c).txArmed = s.txArmed := rfl
@[simp] theorem State.terminate_txs (c : EndCause) : (s.terminate c).txs = s.txs := rfl
@[simp] theorem State.terminate_txCur (c : EndCause) : (s.terminate c).txCur = s.txCur := rfl
@[simp] theorem State.terminate_txBitsLeft (c : EndCause) : (s.terminate c).txBitsLeft = s.txBitsLeft := rfl
@[simp] theorem State.terminate_txRep (c : EndCause) : (s.terminate c).txRep = s.txRep := rfl
@[simp] theorem State.terminate_txPin (c : EndCause) : (s.terminate c).txPin = s.txPin := rfl
@[simp] theorem State.terminate_txDone (c : EndCause) : (s.terminate c).txDone = s.txDone := rfl
@[simp] theorem State.terminate_fault (c : EndCause) : (s.terminate c).fault = s.fault := rfl
@[simp] theorem State.terminate_faultCode (c : EndCause) : (s.terminate c).faultCode = s.faultCode := rfl
@[simp] theorem State.terminate_up (c : EndCause) : (s.terminate c).up = s.up ++ [.frameEnd c] := rfl

@[simp] theorem State.handoff_cfg (now : Stamp) : (s.handoff now).cfg = s.cfg := rfl
@[simp] theorem State.handoff_trace (now : Stamp) : (s.handoff now).trace = s.trace := rfl
@[simp] theorem State.handoff_rxArmed (now : Stamp) : (s.handoff now).rxArmed = s.rxArmed := rfl
@[simp] theorem State.handoff_rxs (now : Stamp) : (s.handoff now).rxs = s.rxs := rfl
@[simp] theorem State.handoff_endCause (now : Stamp) : (s.handoff now).endCause = s.endCause := rfl
@[simp] theorem State.handoff_rxDone (now : Stamp) : (s.handoff now).rxDone = s.rxDone := rfl
@[simp] theorem State.handoff_time0 (now : Stamp) : (s.handoff now).time0 = now := rfl
@[simp] theorem State.handoff_preambleCnt (now : Stamp) : (s.handoff now).preambleCnt = s.preambleCnt := rfl
@[simp] theorem State.handoff_active (now : Stamp) : (s.handoff now).active = s.active.flip := rfl
@[simp] theorem State.handoff_count0 (now : Stamp) : (s.handoff now).count0 = if s.active.flip = .b0 then 0 else s.count0 := rfl
@[simp] theorem State.handoff_count1 (now : Stamp) : (s.handoff now).count1 = if s.active.flip = .b1 then 0 else s.count1 := rfl
@[simp] theorem State.handoff_log (now : Stamp) : (s.handoff now).log = s.log := rfl
@[simp] theorem State.handoff_decodePending (now : Stamp) : (s.handoff now).decodePending = true := rfl
@[simp] theorem State.handoff_endSeen (now : Stamp) : (s.handoff now).endSeen = s.endSeen := rfl
@[simp] theorem State.handoff_lastByte (now : Stamp) : (s.handoff now).lastByte = s.lastByte := rfl
@[simp] theorem State.handoff_txArmed (now : Stamp) : (s.handoff now).txArmed = s.txArmed := rfl
@[simp] theorem State.handoff_txs (now : Stamp) : (s.handoff now).txs = s.txs := rfl
@[simp] theorem State.handoff_txCur (now : Stamp) : (s.handoff now).txCur = s.txCur := rfl
@[simp] theorem State.handoff_txBitsLeft (now : Stamp) : (s.handoff now).txBitsLeft = s.txBitsLeft := rfl
@[simp] theorem State.handoff_txRep (now : Stamp) : (s.handoff now).txRep = s.txRep := rfl
@[simp] theorem State.handoff_txPin (now : Stamp) : (s.handoff now).txPin = s.txPin := rfl
@[simp] theorem State.handoff_txDone (now : Stamp) : (s.handoff now).txDone = s.txDone := rfl
@[simp] theorem State.handoff_fault (now : Stamp) : (s.handoff now).fault = s.fault := rfl
@[simp] theorem State.handoff_faultCode (now : Stamp) : (s.handoff now).faultCode = s.faultCode := rfl
@[simp] theorem State.handoff_up (now : Stamp) : (s.handoff now).up = s.up := rfl

@[simp] theorem State.commit_cfg (x : Byte) : (s.commit x).cfg = s.cfg := rfl
@[simp] theorem State.commit_trace (x : Byte) : (s.commit x).trace = s.trace := rfl
@[simp] theorem State.commit_rxArmed (x : Byte) : (s.commit x).rxArmed = s.rxArmed := rfl
@[simp] theorem State.commit_rxs (x : Byte) : (s.commit x).rxs = s.rxs := rfl
@[simp] theorem State.commit_endCause (x : Byte) : (s.commit x).endCause = s.endCause := rfl
@[simp] theorem State.commit_rxDone (x : Byte) : (s.commit x).rxDone = s.rxDone := rfl
@[simp] theorem State.commit_time0 (x : Byte) : (s.commit x).time0 = s.time0 := rfl
@[simp] theorem State.commit_preambleCnt (x : Byte) : (s.commit x).preambleCnt = s.preambleCnt := rfl
@[simp] theorem State.commit_active (x : Byte) : (s.commit x).active = s.active := rfl
@[simp] theorem State.commit_count0 (x : Byte) : (s.commit x).count0 = s.count0 := rfl
@[simp] theorem State.commit_count1 (x : Byte) : (s.commit x).count1 = s.count1 := rfl
@[simp] theorem State.commit_log (x : Byte) : (s.commit x).log = s.log := rfl
@[simp] theorem State.commit_decodePending (x : Byte) : (s.commit x).decodePending = false := rfl
@[simp] theorem State.commit_endSeen (x : Byte) : (s.commit x).endSeen = endSeenNext s.cfg x s.endSeen := rfl
@[simp] theorem State.commit_lastByte (x : Byte) : (s.commit x).lastByte = x := rfl
@[simp] theorem State.commit_txArmed (x : Byte) : (s.commit x).txArmed = s.txArmed := rfl
@[simp] theorem State.commit_txs (x : Byte) : (s.commit x).txs = s.txs := rfl
@[simp] theorem State.commit_txCur (x : Byte) : (s.commit x).txCur = s.txCur := rfl
@[simp] theorem State.commit_txBitsLeft (x : Byte) : (s.commit x).txBitsLeft = s.txBitsLeft := rfl
@[simp] theorem State.commit_txRep (x : Byte) : (s.commit x).txRep = s.txRep := rfl
@[simp] theorem State.commit_txPin (x : Byte) : (s.commit x).txPin = s.txPin := rfl
@[simp] theorem State.commit_txDone (x : Byte) : (s.commit x).txDone = s.txDone := rfl
@[simp] theorem State.commit_fault (x : Byte) : (s.commit x).fault = s.fault := rfl
@[simp] theorem State.commit_faultCode (x : Byte) : (s.commit x).faultCode = s.faultCode := rfl
@[simp] theorem State.commit_up (x : Byte) : (s.commit x).up = s.up ++ [.data x] := rfl

@[simp] theorem State.armReceive_cfg : (s.armReceive).cfg = s.cfg := rfl
@[simp] theorem State.armReceive_trace : (s.armReceive).trace = s.trace := rfl
@[simp] theorem State.armReceive_rxArmed : (s.armReceive).rxArmed = true := rfl
@[simp] theorem State.armReceive_rxs : (s.armReceive).rxs = .idle := rfl
@[simp] theorem State.armReceive_endCause : (s.armReceive).endCause = .none := rfl
@[simp] theorem State.armReceive_rxDone : (s.armReceive).rxDone = false := rfl
@[simp] theorem State.armReceive_time0 : (s.armReceive).time0 = 0 := rfl
@[simp] theorem State.armReceive_preambleCnt : (s.armReceive).preambleCnt = 0 := rfl
@[simp] theorem State.armReceive_active : (s.armReceive).active = .b0 := rfl
@[simp] theorem State.armReceive_count0 : (s.armReceive).count0 = 0 := rfl
@[simp] theorem State.armReceive_count1 : (s.armReceive).count1 = 0 := rfl
@[simp] theorem State.armReceive_log : (s.armReceive).log = s.log := rfl
@[simp] theorem State.armReceive_decodePending : (s.armReceive).decodePending = false := rfl
@[simp] theorem State.armReceive_endSeen : (s.armReceive).endSeen = false := rfl
@[simp] theorem State.armReceive_lastByte : (s.armReceive).lastByte = 0 := rfl
@[simp] theorem State.armReceive_txArmed : (s.armReceive).txArmed = s.txArmed := rfl
@[simp] theorem State.armReceive_txs : (s.armReceive).txs = s.txs := rfl
@[simp] theorem State.armReceive_txCur : (s.armReceive).txCur = s.txCur := rfl
@[simp] theorem State.armReceive_txBitsLeft : (s.armReceive).txBitsLeft = s.txBitsLeft := rfl
@[simp] theorem State.armReceive_txRep : (s.armReceive).txRep = s.txRep := rfl
@[simp] theorem State.armReceive_txPin : (s.armReceive).txPin = s.txPin := rfl
@[simp] theorem State.armReceive_txDone : (s.armReceive).txDone = s.txDone := rfl
@[simp] theorem State.armReceive_fault : (s.armReceive).fault = s.fault := rfl
@[simp] theorem State.armReceive_faultCode : (s.armReceive).faultCode = s.faultCode := rfl
@[simp] theorem State.armReceive_up : (s.armReceive).up = s.up := rfl

@[simp] theorem State.armTransmit_cfg : (s.armTransmit).cfg = s.cfg := rfl
@[simp] theorem State.armTransmit_trace : (s.armTransmit).trace = s.trace := rfl
@[simp] theorem State.armTransmit_rxArmed : (s.armTransmit).rxArmed = s.rxArmed := rfl
@[simp] theorem State.armTransmit_rxs : (s.armTransmit).rxs = s.rxs := rfl
@[simp] theorem State.armTransmit_endCause : (s.armTransmit).endCause = s.endCause := rfl
@[simp] theorem State.armTransmit_rxDone : (s.armTransmit).rxDone = s.rxDone := rfl
@[simp] theorem State.armTransmit_time0 : (s.armTransmit).time0 = s.time0 := rfl
@[simp] theorem State.armTransmit_preambleCnt : (s.armTransmit).preambleCnt = s.preambleCnt := rfl
@[simp] theorem State.armTransmit_active : (s.armTransmit).active = s.active := rfl
@[simp] theorem State.armTransmit_count0 : (s.armTransmit).count0 = s.count0 := rfl
@[simp] theorem State.armTransmit_count1 : (s.armTransmit).count1 = s.count1 := rfl
@[simp] theorem State.armTransmit_log : (s.armTransmit).log = s.log := rfl
@[simp] theorem State.armTransmit_decodePending : (s.armTransmit).decodePending = s.decodePending := rfl
@[simp] theorem State.armTransmit_endSeen : (s.armTransmit).endSeen = s.endSeen := rfl
@[simp] theorem State.armTransmit_lastByte : (s.armTransmit).lastByte = s.lastByte := rfl
@[simp] theorem State.armTransmit_txArmed : (s.armTransmit).txArmed = true := rfl
@[simp] theorem State.armTransmit_txs : (s.armTransmit).txs = .idle := rfl
@[simp] theorem State.armTransmit_txCur : (s.armTransmit).txCur = 0 := rfl
@[simp] theorem State.armTransmit_txBitsLeft : (s.armTransmit).txBitsLeft = 0 := rfl
@[simp] theorem State.armTransmit_txRep : (s.armTransmit).txRep = 0 := rfl
@[simp] theorem State.armTransmit_txPin : (s.armTransmit).txPin = true := rfl
@[simp] theorem State.armTransmit_txDone : (s.armTransmit).txDone = false := rfl
@[simp] theorem State.armTransmit_fault : (s.armTransmit).fault = s.fault := rfl
@[simp] theorem State.armTransmit_faultCode : (s.armTransmit).faultCode = s.faultCode := rfl
@[simp] theorem State.armTransmit_up : (s.armTransmit).up = s.up := rfl

@[simp] theorem State.loadCounted_cfg (x : Byte) : (s.loadCounted x).cfg = s.cfg := rfl
@[simp] theorem State.loadCounted_trace (x : Byte) : (s.loadCounted x).trace = s.trace := rfl
@[simp] theorem State.loadCounted_rxArmed (x : Byte) : (s.loadCounted x).rxArmed = s.rxArmed := rfl
@[simp] theorem State.loadCounted_rxs (x : Byte) : (s.loadCounted x).rxs = s.rxs := rfl
@[simp] theorem State.loadCounted_endCause (x : Byte) : (s.loadCounted x).endCause = s.endCause := rfl
@[simp] theorem State.loadCounted_rxDone (x : Byte) : (s.loadCounted x).rxDone = s.rxDone := rfl
@[simp] theorem State.loadCounted_time0 (x : Byte) : (s.loadCounted x).time0 = s.time0 := rfl
@[simp] theorem State.loadCounted_preambleCnt (x : Byte) : (s.loadCounted x).preambleCnt = s.preambleCnt := rfl
@[simp] theorem State.loadCounted_active (x : Byte) : (s.loadCounted x).active = s.active := rfl
@[simp] theorem State.loadCounted_count0 (x : Byte) : (s.loadCounted x).count0 = s.count0 := rfl
@[simp] theorem State.loadCounted_count1 (x : Byte) : (s.loadCounted x).count1 = s.count1 := rfl
@[simp] theorem State.loadCounted_log (x : Byte) : (s.loadCounted x).log = s.log := rfl
@[simp] theorem State.loadCounted_decodePending (x : Byte) : (s.loadCounted x).decodePending = s.decodePending := rfl
@[simp] theorem State.loadCounted_endSeen (x : Byte) : (s.loadCounted x).endSeen = s.endSeen := rfl
@[simp] theorem State.loadCounted_lastByte (x : Byte) : (s.loadCounted x).lastByte = s.lastByte := rfl
@[simp] theorem State.loadCounted_txArmed (x : Byte) : (s.loadCounted x).txArmed = s.txArmed := rfl
@[simp] theorem State.loadCounted_txs (x : Byte) : (s.loadCounted x).txs = s.txs := rfl
@[simp] theorem State.loadCounted_txCur (x : Byte) : (s.loadCounted x).txCur = x := rfl
@[simp] theorem State.loadCounted_txBitsLeft (x : Byte) : (s.loadCounted x).txBitsLeft = s.txBitsLeft := rfl
@[simp] theorem State.loadCounted_txRep (x : Byte) : (s.loadCounted x).txRep = s.txRep + 1 := rfl
@[simp] theorem State.loadCounted_txPin (x : Byte) : (s.loadCounted x).txPin = s.txPin := rfl
@[simp] theorem State.loadCounted_txDone (x : Byte) : (s.loadCounted x).txDone = s.txDone := rfl
@[simp] theorem State.loadCounted_fault (x : Byte) : (s.loadCounted x).fault = s.fault := rfl
@[simp] theorem State.loadCounted_faultCode (x : Byte) : (s.loadCounted x).faultCode = s.faultCode := rfl
@[simp] theorem State.loadCounted_up (x : Byte) : (s.loadCounted x).up = s.up := rfl

@[simp] theorem State.enterPhase_cfg (p : TxState) : (s.enterPhase p).cfg = s.cfg := rfl
@[simp] theorem State.enterPhase_trace (p : TxState) : (s.enterPhase p).trace = s.trace := rfl
@[simp] theorem State.enterPhase_rxArmed (p : TxState) : (s.enterPhase p).rxArmed = s.rxArmed := rfl
@[simp] theorem State.enterPhase_rxs (p : TxState) : (s.enterPhase p).rxs = s.rxs := rfl
@[simp] theorem State.enterPhase_endCause (p : TxState) : (s.enterPhase p).endCause = s.endCause := rfl
@[simp] theorem State.enterPhase_rxDone (p : TxState) : (s.enterPhase p).rxDone = s.rxDone := rfl
@[simp] theorem State.enterPhase_time0 (p : TxState) : (s.enterPhase p).time0 = s.time0 := rfl
@[simp] theorem State.enterPhase_preambleCnt (p : TxState) : (s.enterPhase p).preambleCnt = s.preambleCnt := rfl
@[simp] theorem State.enterPhase_active (p : TxState) : (s.enterPhase p).active = s.active := rfl
@[simp] theorem State.enterPhase_count0 (p : TxState) : (s.enterPhase p).count0 = s.count0 := rfl
@[simp] theorem State.enterPhase_count1 (p : TxState) : (s.enterPhase p).count1 = s.count1 := rfl
@[simp] theorem State.enterPhase_log (p : TxState) : (s.enterPhase p).log = s.log := rfl
@[simp] theorem State.enterPhase_decodePending (p : TxState) : (s.enterPhase p).decodePending = s.decodePending := rfl
@[simp] theorem State.enterPhase_endSeen (p : TxState) : (s.enterPhase p).endSeen = s.endSeen := rfl
@[simp] theorem State.enterPhase_lastByte (p : TxState) : (s.enterPhase p).lastByte = s.lastByte := rfl
@[simp] theorem State.enterPhase_txArmed (p : TxState) : (s.enterPhase p).txArmed = s.txArmed := rfl
@[simp] theorem State.enterPhase_txs (p : TxState) : (s.enterPhase p).txs = p := rfl
@[simp] theorem State.enterPhase_txCur (p : TxState) : (s.enterPhase p).txCur = s.txCur := rfl
@[simp] theorem State.enterPhase_txBitsLeft (p : TxState) : (s.enterPhase p).txBitsLeft = s.txBitsLeft := rfl
@[simp] theorem State.enterPhase_txRep (p : TxState) : (s.enterPhase p).txRep = 0 := rfl
@[simp] theorem State.enterPhase_txPin (p : TxState) : (s.enterPhase p).txPin = s.txPin := rfl
@[simp] theorem State.enterPhase_txDone (p : TxState) : (s.enterPhase p).txDone = s.txDone := rfl
@[simp] theorem State.enterPhase_fault (p : TxState) : (s.enterPhase p).fault = s.fault := rfl
@[simp] theorem State.enterPhase_faultCode (p : TxState) : (s.enterPhase p).faultCode = s.faultCode := rfl
@[simp] theorem State.enterPhase_up (p : TxState) : (s.enterPhase p).up = s.up := rfl

@[simp] theorem State.finish_cfg : (s.finish).cfg = s.cfg := rfl
@[simp] theorem State.finish_trace : (s.finish).trace = s.trace := rfl
@[simp] theorem State.finish_rxArmed : (s.finish).rxArmed = s.rxArmed := rfl
@[simp] theorem State.finish_rxs : (s.finish).rxs = s.rxs := rfl
@[simp] theorem State.finish_endCause : (s.finish).endCause = s.endCause := rfl
@[simp] theorem State.finish_rxDone : (s.finish).rxDone = s.rxDone := rfl
@[simp] theorem State.finish_time0 : (s.finish).time0 = s.time0 := rfl
@[simp] theorem State.finish_preambleCnt : (s.finish).preambleCnt = s.preambleCnt := rfl
@[simp] theorem State.finish_active : (s.finish).active = s.active := rfl
@[simp] theorem State.finish_count0 : (s.finish).count0 = s.count0 := rfl
@[simp] theorem State.finish_count1 : (s.finish).count1 = s.count1 := rfl
@[simp] theorem State.finish_log : (s.finish).log = s.log := rfl
@[simp] theorem State.finish_decodePending : (s.finish).decodePending = s.decodePending := rfl
@[simp] theorem State.finish_endSeen : (s.finish).endSeen = s.endSeen := rfl
@[simp] theorem State.finish_lastByte : (s.finish).lastByte = s.lastByte := rfl
@[simp] theorem State.finish_txArmed : (s.finish).txArmed = s.txArmed := rfl
@[simp] theorem State.finish_txs : (s.finish).txs = s.txs := rfl
@[simp] theorem State.finish_txCur : (s.finish).txCur = s.txCur := rfl
@[simp] theorem State.finish_txBitsLeft : (s.finish).txBitsLeft = s.txBitsLeft := rfl
@[simp] theorem State.finish_txRep : (s.finish).txRep = s.txRep := rfl
@[simp] theorem State.finish_txPin : (s.finish).txPin = true := rfl
@[simp] theorem State.finish_txDone : (s.finish).txDone = true := rfl
@[simp] theorem State.finish_fault : (s.finish).fault = s.fault := rfl
@[simp] theorem State.finish_faultCode : (s.finish).faultCode = s.faultCode := rfl
@[simp] theorem State.finish_up : (s.finish).up = s.up ++ [.txDone] := rfl

@[simp] theorem State.pushWord_cfg (w : Word) : (s.pushWord w).cfg = s.cfg := rfl
@[simp] theorem State.pushWord_trace (w : Word) : (s.pushWord w).trace = w :: s.trace := rfl
@[simp] theorem State.pushWord_rxArmed (w : Word) : (s.pushWord w).rxArmed = s.rxArmed := rfl
@[simp] theorem State.pushWord_rxs (w : Word) : (s.pushWord w).rxs = s.rxs := rfl
@[simp] theorem State.pushWord_endCause (w : Word) : (s.pushWord w).endCause = s.endCause := rfl
@[simp] theorem State.pushWord_rxDone (w : Word) : (s.pushWord w).rxDone = s.rxDone := rfl
@[simp] theorem State.pushWord_time0 (w : Word) : (s.pushWord w).time0 = s.time0 := rfl
@[simp] theorem State.pushWord_preambleCnt (w : Word) : (s.pushWord w).preambleCnt = s.preambleCnt := rfl
@[simp] theorem State.pushWord_active (w : Word) : (s.pushWord w).active = s.active := rfl
@[simp] theorem State.pushWord_count0 (w : Word) : (s.pushWord w).count0 = s.count0 := rfl
@[simp] theorem State.pushWord_count1 (w : Word) : (s.pushWord w).count1 = s.count1 := rfl
@[simp] theorem State.pushWord_log (w : Word) : (s.pushWord w).log = s.log := rfl
@[simp] theorem State.pushWord_decodePending (w : Word) : (s.pushWord w).decodePending = s.decodePending := rfl
@[simp] theorem State.pushWord_endSeen (w : Word) : (s.pushWord w).endSeen = s.endSeen := rfl
@[simp] theorem State.pushWord_lastByte (w : Word) : (s.pushWord w).lastByte = s.lastByte := rfl
@[simp] theorem State.pushWord_txArmed (w : Word) : (s.pushWord w).txArmed = s.txArmed := rfl
@[simp] theorem State.pushWord_txs (w : Word) : (s.pushWord w).txs = s.txs := rfl
@[simp] theorem State.pushWord_txCur (w : Word) : (s.pushWord w).txCur = s.txCur := rfl
@[simp] theorem State.pushWord_txBitsLeft (w : Word) : (s.pushWord w).txBitsLeft = s.txBitsLeft := rfl
@[simp] theorem State.pushWord_txRep (w : Word) : (s.pushWord w).txRep = s.txRep := rfl
@[simp] theorem State.pushWord_txPin (w : Word) : (s.pushWord w).txPin = s.txPin := rfl
@[simp] theorem State.pushWord_txDone (w : Word) : (s.pushWord w).txDone = s.txDone := rfl
@[simp] theorem State.pushWord_fault (w : Word) : (s.pushWord w).fault = s.fault := rfl
@[simp] theorem State.pushWord_faultCode (w : Word) : (s.pushWord w).faultCode = s.faultCode := rfl
@[simp] theorem State.pushWord_up (w : Word) : (s.pushWord w).up = s.up := rfl

end Sys2Proof.Machine
end

