-- ==== Sys2Proof/Laws/Ops.lean ====
section
/-! SUPPORT. For each shared operation and each meaning, one lemma that says once everything it can do.
Later proofs cite these and unfold nothing. -/

namespace Sys2Proof.Machine

/-! ## Buffers and counts -/

@[simp] theorem Buf.flip_flip (b : Buf) : b.flip.flip = b := by cases b <;> rfl

@[simp] theorem Buf.flip_ne (b : Buf) : b.flip ≠ b := by cases b <;> simp [Buf.flip]

@[simp] theorem Buf.ne_flip (b : Buf) : b ≠ b.flip := by cases b <;> simp [Buf.flip]

theorem State.count_setCount (s : State) (b b' : Buf) (v : BitVec 5) :
    (s.setCount b v).count b' = if b' = b then v else s.count b' := by
  cases b <;> cases b' <;> simp [State.count, State.setCount]

/-- The counts are read from their two fields alone. -/
theorem State.count_congr {s t : State} (h0 : s.count0 = t.count0) (h1 : s.count1 = t.count1) (b : Buf) :
    s.count b = t.count b := by cases b <;> simp [State.count, h0, h1]

/-! ## The gatherer -/

/-- Everything `Append` can do (R149). -/
theorem State.append_eq_some_iff {s t : State} {iv : Byte} :
    s.append iv = some t ↔
      (s.count s.active).toNat < edgeCap ∧
      t = { s.setCount s.active (s.count s.active + 1) with
            log := s.log.writeCell (logAddr s.active (s.count s.active).toNat) iv } := by
  unfold State.append logWrite
  split <;> simp_all [eq_comm]

theorem State.append_eq_none_iff {s : State} {iv : Byte} :
    s.append iv = none ↔ edgeCap ≤ (s.count s.active).toNat := by
  unfold State.append logWrite
  split <;> simp_all

/-- Everything a gathering edge can do (R140). -/
theorem gatherEdge_next {l : Bool} {iv : Byte} {now : Stamp} {s t : State}
    (h : gatherEdge l iv now s = .next t) :
    (∃ c, gatherEnd l iv s = some c ∧ t = s.terminate c) ∨
    (gatherEnd l iv s = none ∧ ∃ u, s.append iv = some u ∧
      t = if isBoundary l iv then u.handoff now else u) := by
  unfold gatherEdge at h
  split at h
  · next c hc => exact .inl ⟨c, hc, by cases h; rfl⟩
  · next hc =>
    split at h
    · cases h
    · next u hu => exact .inr ⟨hc, u, hu, by cases h; rfl⟩

/-- A condition of R140 ends the frame. -/
theorem gatherEdge_of_end {l : Bool} {iv : Byte} {now : Stamp} {s : State} {c : EndCause}
    (h : gatherEnd l iv s = some c) : gatherEdge l iv now s = .next (s.terminate c) := by
  simp [gatherEdge, h]

/-- When no condition ends the frame (R140). -/
theorem gatherEnd_eq_none_iff {l : Bool} {iv : Byte} {s : State} :
    gatherEnd l iv s = none ↔
      tooLong iv = false ∧ wrongPolarity l iv = false ∧ s.endSeen = false ∧
      (isBoundary l iv = true → s.decodePending = false) ∧ (s.count s.active).toNat ≠ edgeCap := by
  unfold gatherEnd
  repeat' split
  all_goals simp_all

/-! ## EDGE -/

/-- PreambleUpdate leaves everything as it is where edges are not counted: in Idle and Gathering (R105). -/
theorem State.preambleUpdate_of_not_counted {s : State} (h : s.rxs.countsPreamble = false) (iv : Byte) :
    s.preambleUpdate iv = s := by simp [State.preambleUpdate, preambleNext, h]

/-- Everything EDGE can do (R100): nothing, or the state rule after PreambleUpdate. -/
theorem execEdge_next {l : Bool} {ts : Stamp} {s t : State} (h : execEdge l ts s = .next t) :
    ((s.fault = true ∨ s.rxArmed = false) ∧ t = s) ∨
    (s.fault = false ∧ s.rxArmed = true ∧
      edgeRule l (interval s.cfg s.time0 (sampleNow s.cfg ts)) (sampleNow s.cfg ts)
        (s.preambleUpdate (interval s.cfg s.time0 (sampleNow s.cfg ts))) = .next t) := by
  unfold execEdge at h
  split at h
  · next hf => exact .inl ⟨.inl hf, by cases h; rfl⟩
  · next hf =>
    split at h
    · next ha => exact .inl ⟨.inr (by simpa using ha), by cases h; rfl⟩
    · next ha => exact .inr ⟨by simpa using hf, by simpa using ha, h⟩

/-- A processed EDGE is the state rule. -/
theorem execEdge_processed {l : Bool} {ts : Stamp} {s : State} (hf : s.fault = false) (ha : s.rxArmed = true) :
    execEdge l ts s =
      edgeRule l (interval s.cfg s.time0 (sampleNow s.cfg ts)) (sampleNow s.cfg ts)
        (s.preambleUpdate (interval s.cfg s.time0 (sampleNow s.cfg ts))) := by
  simp [execEdge, hf, ha]

/-- A processed EDGE in Gathering is the gatherer (R140). -/
theorem execEdge_gathering {l : Bool} {ts : Stamp} {s : State} (hf : s.fault = false) (ha : s.rxArmed = true)
    (hr : s.rxs = .gathering) :
    execEdge l ts s =
      gatherEdge l (interval s.cfg s.time0 (sampleNow s.cfg ts)) (sampleNow s.cfg ts) s := by
  rw [execEdge_processed hf ha, State.preambleUpdate_of_not_counted (by rw [hr]; rfl)]
  simp [edgeRule, hr]

/-- Everything the state rule of an EDGE can do (R128, R140): a scanning transition, a frame start, or
the gatherer. -/
theorem edgeRule_next {l : Bool} {iv : Byte} {now : Stamp} {s t : State} (h : edgeRule l iv now s = .next t) :
    (∃ r, s.rxs ≠ .gathering ∧ s.rxs ≠ .done ∧ s.rxs ≠ .frameStart ∧
      r ≠ .gathering ∧ r ≠ .done ∧ r ≠ .frameStart ∧ t = s.scanTo r now) ∨
    (s.rxs = .waitStop ∧ l = false ∧ t = s.startFrame now) ∨
    (s.rxs = .gathering ∧ gatherEdge l iv now s = .next t) := by
  cases hr : s.rxs <;> simp only [edgeRule, hr] at h
  case idle => cases h; exact .inl ⟨_, by simp, by simp, by simp, by split <;> simp, by split <;> simp, by split <;> simp, rfl⟩
  case low => cases h; exact .inl ⟨_, by simp, by simp, by simp, by split <;> simp, by split <;> simp, by split <;> simp, rfl⟩
  case high =>
    cases h
    exact .inl ⟨_, by simp, by simp, by simp, by repeat' split <;> simp, by repeat' split <;> simp,
      by repeat' split <;> simp, rfl⟩
  case checkSync1 =>
    cases h
    exact .inl ⟨_, by simp, by simp, by simp, by repeat' split <;> simp, by repeat' split <;> simp,
      by repeat' split <;> simp, rfl⟩
  case waitStop =>
    cases h
    cases l
    · exact .inr (.inl ⟨rfl, rfl, rfl⟩)
    · exact .inl ⟨.waitStop, by simp, by simp, by simp, by simp, by simp, by simp, rfl⟩
  case gathering => exact .inr (.inr ⟨rfl, h⟩)
  case done => cases h
  case frameStart => cases h

/-! ## DECODE -/

/-- Everything DECODE can do (R160). -/
theorem execDecode_next {s t : State} (h : execDecode s = .next t) :
    ((s.fault = true ∨ s.decodePending = false) ∧ t = s) ∨
    (s.fault = false ∧ s.decodePending = true ∧ ∃ es, s.completedEntries = some es ∧
      t = s.commit (decodeBuffer s.cfg es)) := by
  unfold execDecode at h
  split at h
  · next hf => exact .inl ⟨.inl hf, by cases h; rfl⟩
  · next hf =>
    split at h
    · next hp => exact .inl ⟨.inr (by simpa using hp), by cases h; rfl⟩
    · next hp =>
      split at h
      · cases h
      · next es he => exact .inr ⟨by simpa using hf, by simpa using hp, es, he, by cases h; rfl⟩

/-! ## Transmit -/

/-- LoadNext writes `txs`, `tx_cur` and `tx_rep`, and nothing else (R185). -/
theorem loadNext_frame (answer : Option Byte) (s : State) :
    ∃ p x r, loadNext answer s = { s with txs := p, txCur := x, txRep := r } := by
  have ht : ∀ s : State, ∃ p x r, loadTraining s = { s with txs := p, txCur := x, txRep := r } := by
    intro s; unfold loadTraining; split
    · exact ⟨_, _, _, rfl⟩
    · exact ⟨_, _, _, rfl⟩
  have hm : ∀ s : State, ∃ p x r, loadMessage answer s = { s with txs := p, txCur := x, txRep := r } := by
    intro s; unfold loadMessage; split
    · exact ⟨_, _, _, rfl⟩
    · obtain ⟨p, x, r, h⟩ := ht (s.enterPhase .training); exact ⟨p, x, r, h⟩
  have hs : ∀ s : State, ∃ p x r, loadSync answer s = { s with txs := p, txCur := x, txRep := r } := by
    intro s; unfold loadSync; split
    · exact ⟨_, _, _, rfl⟩
    · obtain ⟨p, x, r, h⟩ := hm (s.enterPhase .message); exact ⟨p, x, r, h⟩
  have hp : ∀ s : State, ∃ p x r, loadPreamble answer s = { s with txs := p, txCur := x, txRep := r } := by
    intro s; unfold loadPreamble; split
    · exact ⟨_, _, _, rfl⟩
    · obtain ⟨p, x, r, h⟩ := hs (s.enterPhase .sync); exact ⟨p, x, r, h⟩
  unfold loadNext
  split
  · obtain ⟨p, x, r, h⟩ := hp (s.enterPhase .preamble); exact ⟨p, x, r, h⟩
  · exact hp s
  · exact hs s
  · exact hm s
  · exact ht s
  · exact ⟨_, _, _, rfl⟩

/-- Everything DriveBit can do (R186). -/
theorem driveBit_next {s t : State} (h : driveBit s = .next t) :
    s.txBitsLeft.toNat ≤ frameLen ∧
    t = { s with
          txPin := frameBit s.cfg s.txCur (frameLen - s.txBitsLeft.toNat)
          txBitsLeft := s.txBitsLeft - 1 } := by
  unfold driveBit at h
  split at h
  · cases h
  · next hb => exact ⟨not_lt.1 hb, by cases h; rfl⟩

/-- Everything TX_TICK can do (R182). -/
theorem execTxTick_next {answer : Option Byte} {s t : State} (h : execTxTick answer s = .next t) :
    ((s.fault = true ∨ s.txArmed = false) ∧ t = s) ∨
    (s.fault = false ∧ s.txArmed = true ∧
      ((s.txs = .done ∧ t = { s with txPin := true }) ∨
       (s.txs ≠ .done ∧ s.txBitsLeft = 0 ∧ (loadNext answer s).txs = .done ∧ t = (loadNext answer s).finish) ∨
       (s.txs ≠ .done ∧ s.txBitsLeft = 0 ∧ (loadNext answer s).txs ≠ .done ∧
         driveBit { loadNext answer s with txBitsLeft := BitVec.ofNat 4 frameLen } = .next t) ∨
       (s.txs ≠ .done ∧ s.txBitsLeft ≠ 0 ∧ driveBit s = .next t))) := by
  unfold execTxTick at h
  split at h
  · next hf => exact .inl ⟨.inl hf, by cases h; rfl⟩
  · next hf =>
    split at h
    · next ha => exact .inl ⟨.inr (by simpa using ha), by cases h; rfl⟩
    · next ha =>
      refine .inr ⟨by simpa using hf, by simpa using ha, ?_⟩
      split at h
      · next hd => exact .inl ⟨hd, by cases h; rfl⟩
      · next hd =>
        split at h
        · next hb =>
          simp only at h
          split at h
          · next hl => exact .inr (.inl ⟨hd, hb, hl, by cases h; rfl⟩)
          · next hl => exact .inr (.inr (.inl ⟨hd, hb, hl, h⟩))
        · next hb => exact .inr (.inr (.inr ⟨hd, hb, h⟩))

/-- Everything TX_ENABLE can do (R180, R181). -/
theorem execTxEnable_next {s t : State} (h : execTxEnable s = .next t) :
    (s.fault = true ∧ t = s) ∨
    (s.fault = false ∧ s.rxArmed = true ∧ t = s.raiseFault .exclusion) ∨
    (s.fault = false ∧ s.rxArmed = false ∧ t = s.armTransmit) := by
  unfold execTxEnable at h
  repeat' split at h
  all_goals (cases h; simp_all)

/-- Everything TX_DISABLE can do (R184). -/
theorem execTxDisable_next {s t : State} (h : execTxDisable s = .next t) :
    (s.fault = true ∧ t = s) ∨ (s.fault = false ∧ t = { s with txArmed := false, txPin := true }) := by
  unfold execTxDisable at h
  split at h <;> (cases h; simp_all)

/-! ## Control -/

/-- Everything RX_ENABLE can do (R210, R211). -/
theorem execRxEnable_next {s t : State} (h : execRxEnable s = .next t) :
    (s.fault = true ∧ t = s) ∨
    (s.fault = false ∧ s.txArmed = true ∧ t = s.raiseFault .exclusion) ∨
    (s.fault = false ∧ s.txArmed = false ∧ t = s.armReceive) := by
  unfold execRxEnable at h
  repeat' split at h
  all_goals (cases h; simp_all)

/-- Everything RX_DISABLE can do (R212). -/
theorem execRxDisable_next {s t : State} (h : execRxDisable s = .next t) :
    (s.fault = true ∧ t = s) ∨ (s.fault = false ∧ t = { s with rxArmed := false, decodePending := false }) := by
  unfold execRxDisable at h
  split at h <;> (cases h; simp_all)

/-- Everything READ_REG can do (R214). -/
theorem execReadReg_next {n : Byte} {s t : State} (h : execReadReg n s = .next t) :
    (s.view n = none ∧ t = s.raiseFault .unmappedReg) ∨
    (∃ v, s.view n = some v ∧ t = s.emit (.reg n v)) := by
  unfold execReadReg at h
  split at h <;> (cases h; simp_all)

/-- Everything RESET can do (R216). -/
theorem execReset_next {s t : State} (h : execReset s = .next t) :
    t = { State.resetWith s.cfg with trace := s.trace, up := s.up } := by
  cases h; rfl

/-! ## Every event, and a step -/

/-- No event is refused. -/
theorem exec_ne_refused (i : Instr) (s : State) (r : Refusal) : exec i s ≠ .refused r := by
  have hd : ∀ s, driveBit s ≠ .refused r := by
    intro s h; unfold driveBit at h; split at h <;> cases h
  intro h
  cases i
  case edge l ts =>
    simp only [exec, execEdge, edgeRule, gatherEdge] at h
    repeat' split at h
    all_goals cases h
  case decode =>
    simp only [exec, execDecode] at h
    repeat' split at h
    all_goals cases h
  case txTick a =>
    simp only [exec, execTxTick] at h
    repeat' split at h
    all_goals first | cases h | exact hd _ h
  case rxEnable =>
    simp only [exec, execRxEnable] at h
    repeat' split at h
    all_goals cases h
  case rxDisable =>
    simp only [exec, execRxDisable] at h
    repeat' split at h
    all_goals cases h
  case txEnable =>
    simp only [exec, execTxEnable] at h
    repeat' split at h
    all_goals cases h
  case txDisable =>
    simp only [exec, execTxDisable] at h
    repeat' split at h
    all_goals cases h
  case readReg n =>
    simp only [exec, execReadReg] at h
    repeat' split at h
    all_goals cases h
  case reset => cases h

/-- Everything the delivery of a word can do (R70). -/
theorem fetch_eq (s : State) :
    (s.trace = [] ∧ fetch s = none) ∨
    (∃ w rest, s.trace = w :: rest ∧ fetch s = some (w, { s with trace := rest })) := by
  unfold fetch
  cases s.trace <;> simp

/-- Everything a step can do (R56, R217, R266). -/
theorem step_next {s t : State} (h : step s = .next t) :
    (s.trace = [] ∧ t = s) ∨
    (∃ w rest, s.trace = w :: rest ∧
      ((∃ i, decode s.cfg w = .ok i ∧ exec i { s with trace := rest } = .next t) ∨
       (∃ e, decode s.cfg w = .error e ∧ t = illegalWord { s with trace := rest }))) := by
  rcases fetch_eq s with ⟨ht, hf⟩ | ⟨w, rest, ht, hf⟩
  · rw [step, hf] at h; exact .inl ⟨ht, by cases h; rfl⟩
  · rw [step, hf] at h
    refine .inr ⟨w, rest, ht, ?_⟩
    simp only at h
    cases hd : decode s.cfg w with
    | ok i => rw [hd] at h; exact .inl ⟨i, rfl, h⟩
    | error e => rw [hd] at h; exact .inr ⟨e, rfl, by cases h; rfl⟩

end Sys2Proof.Machine
end

