-- ==== Sys2Proof/Laws/PerInstr.lean ====
section
/-! SUPPORT. Statements made once for each constructor of `Instr`. -/

namespace Sys2Proof.Laws

/-- The word of an event has the event's opcode in bits 31..28 and its operand bits below
(30_encoding.md R71, R73). -/
def OpcodeField.Statement (i : Instr) : Prop :=
  opField (encode i) = opcodeOf i ∧ (encode i).extractLsb' 0 28 = operandBits i

/-- The two fields of a word put together from them. -/
theorem fields_of_append (a : BitVec 4) (b : BitVec 28) :
    opField (a ++ b) = a ∧ (a ++ b).extractLsb' 0 28 = b := by
  have hb : b.toNat < 2 ^ 28 := b.isLt
  have ha : a.toNat < 2 ^ 4 := a.isLt
  have h : ((a ++ b : Word)).toNat = a.toNat * 2 ^ 28 + b.toNat := by
    rw [← Nat.shiftLeft_eq, Nat.shiftLeft_add_eq_or_of_lt hb]
    exact BitVec.toNat_append a b
  constructor <;> apply BitVec.eq_of_toNat_eq
  · rw [opField, BitVec.extractLsb'_toNat, h, Nat.shiftRight_eq_div_pow]
    omega
  · rw [BitVec.extractLsb'_toNat, h, Nat.shiftRight_zero]
    omega

theorem OpcodeField.edge (l : Bool) (ts : Stamp) : OpcodeField.Statement (.edge l ts) :=
  fields_of_append _ _

theorem OpcodeField.decode : OpcodeField.Statement .decode := fields_of_append _ _

theorem OpcodeField.txTick (answer : Option Byte) : OpcodeField.Statement (.txTick answer) :=
  fields_of_append _ _

theorem OpcodeField.rxEnable : OpcodeField.Statement .rxEnable := fields_of_append _ _

theorem OpcodeField.rxDisable : OpcodeField.Statement .rxDisable := fields_of_append _ _

theorem OpcodeField.txEnable : OpcodeField.Statement .txEnable := fields_of_append _ _

theorem OpcodeField.txDisable : OpcodeField.Statement .txDisable := fields_of_append _ _

theorem OpcodeField.readReg (n : Byte) : OpcodeField.Statement (.readReg n) := fields_of_append _ _

theorem OpcodeField.reset : OpcodeField.Statement .reset := fields_of_append _ _

end Sys2Proof.Laws
end

