-- ==== Sys2Proof/Tests/Slice0.lean ====
section
/-! SUPPORT. Small tests, each on one step or one word, with results taken from spec/ (the rule's own
example or a vector of 95_test_vectors.md, named in the docstring), and a witness for every statement that
has hypotheses. -/

namespace Sys2Proof.Tests

open Sys2Proof Sys2Proof.Machine

/-! ## Helpers -/

/-- The next state of an event, where it has one. -/
def after (i : Instr) (s : State) : Option State :=
  match exec i s with
  | .next t => some t
  | _ => none

/-- The next state of a step, where it has one. -/
def afterStep (s : State) : Option State :=
  match step s with
  | .next t => some t
  | _ => none

/-- A receiver in state `r`, with the reference at 1000. -/
def rx (r : RxState) : State := { State.reset with rxArmed := true, rxs := r, time0 := 1000 }

/-- A transmitter in phase `p`. -/
def tx (p : TxState) (cur left rep : Nat) : State :=
  { State.reset with
    txArmed := true
    txs := p
    txCur := BitVec.ofNat 8 cur
    txBitsLeft := BitVec.ofNat 4 left
    txRep := BitVec.ofNat 8 rep }

/-- A frame being gathered in buffer 0, with `n` entries. -/
def gatheringWith (n : Nat) : State := { rx .gathering with count0 := BitVec.ofNat 5 n }

/-- A frame being gathered after its end marker was decoded. -/
def marked : State := { rx .gathering with endSeen := true, lastByte := 0x35 }

/-- A frame being gathered in buffer 1, with a byte handed over in buffer 0. -/
def handed : State :=
  { rx .gathering with
    active := .b1
    count0 := 2
    count1 := 1
    log := [(0, 117), (1, 130), (24, 13)]
    decodePending := true }

/-- The interval an edge at `ts` measures. -/
def ivAt (s : State) (ts : Stamp) : Nat := (interval s.cfg s.time0 (sampleNow s.cfg ts)).toNat

/-- The width-24 setting of V-ENC-26. -/
def wide : Config := { Config.vectors with width := 24 }

/-! ## Well-formedness: an ill-formed term for each check -/

theorem test_width_below_range : Config.widthOk { Config.vectors with width := 7 } = false := by decide

theorem test_width_above_range : Config.widthOk { Config.vectors with width := 25 } = false := by decide

theorem test_shift_out_of_range : Config.shiftOk { Config.vectors with clockShift := 16 } = false := by decide

theorem test_config_refused :
    Config.wf { Config.vectors with width := 7 } = false ∧
    Config.wf { Config.vectors with clockShift := 16 } = false := by decide

theorem test_edge_stamp_refused : Instr.wf Config.vectors (.edge true 0x10000) = false := by decide

theorem test_wf_accepts :
    Config.vectors.wf = true ∧ Instr.wf Config.vectors (.edge true 0xFFFF) = true ∧
    Instr.wf wide (.edge true 0xFFFFFF) = true := by decide

/-! ## Words written out from the formats of R71 -/

theorem test_decode_edge :
    decode Config.vectors (0b0001#4 ++ 0b000#3 ++ 0b1#1 ++ 1767#24) = .ok (.edge true 1767) := by decide

theorem test_decode_decode : decode Config.vectors (0b0010#4 ++ 0#28) = .ok .decode := by decide

theorem test_decode_tick :
    decode Config.vectors (0b0011#4 ++ 0#19 ++ 0b1#1 ++ 0b00110101#8) = .ok (.txTick (some 0x35)) ∧
    decode Config.vectors (0b0011#4 ++ 0#19 ++ 0b0#1 ++ 0#8) = .ok (.txTick none) := by decide

theorem test_decode_rx_enable : decode Config.vectors (0b0100#4 ++ 0#28) = .ok .rxEnable := by decide

theorem test_decode_rx_disable : decode Config.vectors (0b0101#4 ++ 0#28) = .ok .rxDisable := by decide

theorem test_decode_tx_enable : decode Config.vectors (0b0110#4 ++ 0#28) = .ok .txEnable := by decide

theorem test_decode_tx_disable : decode Config.vectors (0b0111#4 ++ 0#28) = .ok .txDisable := by decide

theorem test_decode_read_reg :
    decode Config.vectors (0b1000#4 ++ 0#20 ++ 0b01000111#8) = .ok (.readReg 0x47) := by decide

theorem test_decode_reset : decode Config.vectors (0b1111#4 ++ 0#28) = .ok .reset := by decide

/-- V-ENC-4, 5, 7, 10, 11, 19, 21 to 25, and three bytes. -/
theorem test_decode_rejects :
    decode Config.vectors 0x10010000 = .error .stampTooWide ∧
    decode Config.vectors 0x12000000 = .error .reservedBits ∧
    decode Config.vectors 0x20000001 = .error .reservedBits ∧
    decode Config.vectors 0x301000AA = .error .reservedBits ∧
    decode Config.vectors 0x30000035 = .error .answerNotCanonical ∧
    decode Config.vectors 0x80000100 = .error .reservedBits ∧
    decode Config.vectors 0xF0000001 = .error .reservedBits ∧
    decode Config.vectors 0x00000000 = .error .reservedOpcode ∧
    decode Config.vectors 0x90000000 = .error .reservedOpcode ∧
    decode Config.vectors 0xE0000000 = .error .reservedOpcode ∧
    decode Config.vectors 0xFFFFFFFF = .error .reservedBits ∧
    decodeBytes Config.vectors [0x20, 0, 0] = .error .truncated := by decide

/-- V-ENC-26. -/
theorem test_decode_wide_stamp : decode wide 0x10010000 = .ok (.edge false 65536) := by decide

theorem test_table_word :
    decodeTableWord 32 0x10000000 = some (.edge false 0) ∧ decodeTableWord 32 0x80000000 = some (.readReg 0) ∧
    decodeTableWord 32 0x00000000 = none := by decide

theorem test_fetch_word :
    (afterStep (State.reset.withFetchWord 32 0x40000000)).map State.rxArmed = some true := by decide

/-! ## One step of each event -/

/-- The example of R100: Low, `time0 = 200`, the word 0x1100013D. -/
theorem test_edge_low_rising :
    (afterStep { rx .low with time0 := 200, preambleCnt := 5, trace := [0x1100013D] }).map
      (fun t => (t.rxs, t.preambleCnt, t.time0)) = some (.high, 0, 317) := by decide

/-- The example of R140: the boundary at 130 hands the buffer over. -/
theorem test_edge_boundary :
    (after (.edge false 2130) { rx .gathering with time0 := 2000, count0 := 7 }).map
      (fun t => (t.view 0x17, t.count0, t.active, t.count1, t.decodePending, t.time0)) =
      some (some 130, 8, .b1, 0, true, 2130) := by decide

/-- V-DEC-1: the byte 0x35. -/
theorem test_decode_end_marker :
    (after .decode
        { handed with
          count0 := 8
          log := [(0, 13), (1, 26), (2, 39), (3, 52), (4, 65), (5, 91), (6, 117), (7, 130)] }).map
      (fun t => (t.up, t.lastByte, t.endSeen, t.decodePending)) =
      some ([.data 0x35], 0x35, true, false) := by decide

/-- R165: the boundary alone decodes as 0x00. -/
theorem test_decode_boundary_alone :
    decodeBuffer Config.vectors [130] = 0 ∧ decodeBuffer Config.vectors [] = 0 := by decide

/-- V-TX-9: the fetch tick with `some 0x35`. -/
theorem test_tick_fetch :
    (after (.txTick (some 0x35)) (tx .sync 0x00 0 2)).map
      (fun t => (t.txs, t.txCur, t.txBitsLeft, t.txRep, t.txPin)) =
      some (.message, 0x35, 9, 0, false) := by decide

/-- V-TX-14: data bit 4 of 0x35 with MSB_FIRST, and V-TX-13 with LSB_FIRST. -/
theorem test_tick_bit_order :
    (after (.txTick none)
      { tx .message 0x35 6 0 with cfg := { Config.vectors with bitOrder := .msbFirst } }).map State.txPin =
      some true ∧
    (after (.txTick none) (tx .message 0x35 6 0)).map State.txPin = some false := by decide

/-- V-CTL-1: the log is kept. -/
theorem test_rx_enable_keeps_log :
    (after .rxEnable { rx .done with rxArmed := false, endSeen := true, log := [(0, 13)] }).map
      (fun t => (t.rxArmed, t.rxs, t.endSeen, t.view 0x10)) = some (true, .idle, false, some 13) := by decide

/-- V-CTL-4. -/
theorem test_rx_disable_drops_request :
    (after .rxDisable handed).map (fun t => (t.rxArmed, t.decodePending, t.rxs)) =
      some (false, false, .gathering) := by decide

/-- V-TX-2. -/
theorem test_tx_enable_exclusion :
    after .txEnable (rx .idle) = some { rx .idle with fault := true, faultCode := .exclusion } := by decide

/-- V-TX-20. -/
theorem test_tx_disable_mid_byte :
    after .txDisable { tx .message 0x35 4 0 with txPin := false } =
      some { tx .message 0x35 4 0 with txArmed := false } := by decide

/-- V-CTL-6. -/
theorem test_read_status :
    (after (.readReg 0) { rx .gathering with active := .b1, decodePending := true, endSeen := true }).map
      State.up = some [.reg 0x00 0x71] := by decide

/-- V-CTL-11 and V-CTL-12. -/
theorem test_read_unmapped :
    (after (.readReg 0x28) State.reset).map State.faultCode = some .unmappedReg ∧
    (after (.readReg 0x48) State.reset).map State.faultCode = some .unmappedReg := by decide

/-- V-CTL-15. -/
theorem test_reset_clears_log :
    after .reset { handed with fault := true, faultCode := .exclusion } = some State.reset := by decide

/-- V-CTL-18 and V-CTL-19. -/
theorem test_illegal_word :
    (afterStep { rx .high with trace := [0x90000000] }).map State.faultCode = some .illegalEvent ∧
    (afterStep { State.reset with fault := true, faultCode := .exclusion, trace := [0] }).map
      State.faultCode = some .exclusion := by decide

/-- V-INT-1, 3, 4, 6, 8 and 11. -/
theorem test_interval :
    interval Config.vectors 1000 1117 = 117 ∧ interval Config.vectors 65530 100 = 106 ∧
    interval Config.vectors 100 99 = 255 ∧ interval Config.vectors 0 256 = 255 ∧
    interval { Config.vectors with clockShift := 2 } 0 523 = 130 ∧
    interval { Config.vectors with width := 8 } 250 4 = 10 := by decide

/-- R78 and the edges of 0x35 (V-DEC-1). -/
theorem test_wave :
    assemble Config.vectors [.wave 1000 0x35] =
      [0x100003E8, 0x110003F5, 0x10000402, 0x1100040F, 0x1000041C, 0x11000429, 0x10000443,
        0x1100045D] := by decide

/-- R77: a comment, an empty line and a hexadecimal number. -/
theorem test_assembler_text :
    assembleText Config.vectors
      ['t', 'i', 'c', 'k', ' ', '0', 'x', '3', '5', ' ', ';', 'b', '\n', '\n', 'r', 'e', 's', 'e', 't'] =
      some [0x30000135, 0xF0000000] := by decide

/-! ## Witnesses: what the hypotheses of each statement are met by -/

theorem witness_DecodeOfEncodeIsTheEvent : Instr.wf Config.vectors (.edge true 0xFFFF) = true := by decide

theorem witness_LegalWordIsTheWordOfItsEvent :
    decode Config.vectors 0x1000FFFF = .ok (.edge false 0xFFFF) := by decide

/-- One word for each of the ways of R74, and a word that is in none. -/
theorem witness_IllegalWordRaisesIllegalEvent :
    ({ State.reset with trace := [0x90000000] } : State).trace = 0x90000000 :: [] ∧
    IllegalWord Config.vectors 0x00000000 ∧ IllegalWord Config.vectors 0x90000000 ∧
    IllegalWord Config.vectors 0xE0000000 ∧ IllegalWord Config.vectors 0x12000000 ∧
    IllegalWord Config.vectors 0x30000200 ∧ IllegalWord Config.vectors 0x80000100 ∧
    IllegalWord Config.vectors 0x20000001 ∧ IllegalWord Config.vectors 0xF0000001 ∧
    IllegalWord Config.vectors 0x10010000 ∧ IllegalWord Config.vectors 0x30000001 ∧
    ¬IllegalWord Config.vectors 0x1100FFFF := by
  refine ⟨rfl, ?_, ?_, ?_, ?_, ?_, ?_, ?_, ?_, ?_, ?_, ?_⟩ <;> (unfold IllegalWord; decide)

theorem witness_BytesReadMostSignificantFirst : Instr.wf wide (.edge false 0xFFFFFF) = true := by decide

theorem witness_StepRunsTheDecodedEvent :
    ({ rx .low with trace := [0x1100013D] } : State).trace = 0x1100013D :: [] ∧
    decode Config.vectors 0x1100013D = .ok (.edge true 317) := by decide

theorem witness_StepWithoutEventChangesNothing : (rx .high).trace = [] := by decide

theorem witness_IntervalIsClampedModularDifference :
    wide.wf = true ∧ (0xFFFFFF : Stamp).toNat < 2 ^ wide.width ∧ (0 : Stamp).toNat < 2 ^ wide.width := by
  decide

theorem witness_IntervalMeasuresTheGap :
    Config.vectors.wf = true ∧ (65530 : Stamp).toNat < 2 ^ Config.vectors.width ∧
    65535 < 2 ^ Config.vectors.width := by decide

theorem witness_MaskedEventsChangeNothing :
    ({ rx .high with rxArmed := false } : State).rxArmed = false ∧ (rx .gathering).decodePending = false ∧
    ({ tx .message 0x35 4 0 with txArmed := false } : State).txArmed = false := by decide

theorem witness_EdgeInIdle :
    (rx .idle).fault = false ∧ (rx .idle).rxArmed = true ∧ (rx .idle).rxs = .idle := by decide

/-- And the interval where the next state changes. -/
theorem witness_EdgeInHigh :
    (rx .high).fault = false ∧ (rx .high).rxArmed = true ∧ (rx .high).rxs = .high ∧
    ivAt (rx .high) 1116 = 116 ∧ ivAt (rx .high) 1117 = 117 := by decide

theorem witness_EdgeInLow :
    (rx .low).fault = false ∧ (rx .low).rxArmed = true ∧ (rx .low).rxs = .low := by decide

/-- And the ends of the SYNC1 window. -/
theorem witness_EdgeInCheckSync1 :
    (rx .checkSync1).fault = false ∧ (rx .checkSync1).rxArmed = true ∧ (rx .checkSync1).rxs = .checkSync1 ∧
    ivAt (rx .checkSync1) 1116 = 116 ∧ ivAt (rx .checkSync1) 1117 = 117 ∧ ivAt (rx .checkSync1) 1130 = 130 ∧
    ivAt (rx .checkSync1) 1131 = 131 := by decide

theorem witness_EdgeInWaitStop :
    (rx .waitStop).fault = false ∧ (rx .waitStop).rxArmed = true ∧ (rx .waitStop).rxs = .waitStop := by decide

/-- The thresholds of R105, at both ends, and the cap. -/
theorem witness_PreambleCounterCountsBitPeriods :
    (after (.edge false 1009) (rx .high)).map State.preambleCnt = some 1 ∧
    (after (.edge false 1017) { rx .high with preambleCnt := 64 }).map State.preambleCnt = some 64 ∧
    (after (.edge false 1018) { rx .high with preambleCnt := 3 }).map State.preambleCnt = some 0 ∧
    (after (.edge true 1013) { rx .gathering with preambleCnt := 5 }).map State.preambleCnt = some 5 := by
  decide

theorem witness_RelatchExactlyWhenResync :
    resync false 1130 (rx .gathering) = true ∧ resync false 1129 (rx .gathering) = false ∧
    resync false 1189 (rx .gathering) = false ∧ (after (.edge false 1130) (rx .gathering)).isSome = true ∧
    (after (.edge false 1189) (rx .gathering)).isSome = true := by decide

theorem witness_ScanningEndsNoFrame :
    (rx .waitStop).fault = false ∧ (rx .waitStop).rxArmed = true ∧ (rx .waitStop).rxs = .waitStop := by decide

theorem witness_SyncWordStartsFrame :
    (rx .low).fault = false ∧ (rx .low).rxArmed = true ∧ (rx .low).rxs = .low ∧
    117 ≤ (interval (rx .low).cfg (sampleNow (rx .low).cfg 1026) (sampleNow (rx .low).cfg 1143)).toNat ∧
    117 ≤ (interval (rx .low).cfg (sampleNow (rx .low).cfg 1143) (sampleNow (rx .low).cfg 1273)).toNat ∧
    (interval (rx .low).cfg (sampleNow (rx .low).cfg 1143) (sampleNow (rx .low).cfg 1273)).toNat ≤ 130 := by
  decide

/-- A falling edge at 116 and a rising one at any interval. -/
theorem witness_ShortHighRunsNeverLeaveScanning :
    (rx .high).fault = false ∧ (rx .high).rxArmed = true ∧ (rx .high).rxs = .high ∧
    alongRun
      (fun u i => match i with
        | .edge false ts =>
          decide (u.rxs = .high → (interval u.cfg u.time0 (sampleNow u.cfg ts)).toNat < 117)
        | _ => true)
      ([(false, (1116 : Stamp)), (true, 2000)].map fun e => Instr.edge e.1 e.2) (rx .high) = true := by
  decide

/-- The lowest interval that is too long. -/
theorem witness_TooLongIntervalEndsFrame :
    (rx .gathering).fault = false ∧
    (rx .gathering).rxArmed = true ∧
    (rx .gathering).rxs = .gathering ∧
    188 < ivAt (rx .gathering) 1189 ∧
    ivAt (rx .gathering) 1189 = 189 := by decide

/-- Both ends of the window. -/
theorem witness_WrongPolarityEndsFrame :
    (rx .gathering).fault = false ∧
    (rx .gathering).rxArmed = true ∧
    (rx .gathering).rxs = .gathering ∧
    ivAt (rx .gathering) 1130 = 130 ∧
    ivAt (rx .gathering) 1188 = 188 := by decide

/-- A falling edge at 188 and an edge of either level at 129. -/
theorem witness_EndMarkerGuardEndsFrame :
    marked.fault = false ∧
    marked.rxArmed = true ∧
    marked.rxs = .gathering ∧
    marked.endSeen = true ∧
    ivAt marked 1188 = 188 ∧
    ivAt marked 1129 = 129 := by decide

theorem witness_BoundaryDuringPendingDecodeOverruns :
    handed.fault = false ∧
    handed.rxArmed = true ∧
    handed.rxs = .gathering ∧
    handed.endSeen = false ∧
    handed.decodePending = true ∧
    ivAt handed 1130 = 130 ∧
    ivAt handed 1188 = 188 := by decide

/-- An ordinary edge at 129 and a boundary at 188. -/
theorem witness_TwentyFifthEntryOverflows :
    (gatheringWith 24).fault = false ∧
    (gatheringWith 24).rxArmed = true ∧
    (gatheringWith 24).rxs = .gathering ∧
    (gatheringWith 24).endSeen = false ∧
    (gatheringWith 24).count (gatheringWith 24).active = 24 ∧
    (gatheringWith 24).decodePending = false ∧
    ivAt (gatheringWith 24) 1129 = 129 ∧
    ivAt (gatheringWith 24) 1188 = 188 := by decide

/-- The 24th entry (R149's corner case). -/
theorem witness_OrdinaryEdgeIsAppended :
    (gatheringWith 23).fault = false ∧
    (gatheringWith 23).rxArmed = true ∧
    (gatheringWith 23).rxs = .gathering ∧
    (gatheringWith 23).endSeen = false ∧
    ((gatheringWith 23).count (gatheringWith 23).active).toNat = 23 ∧
    ivAt (gatheringWith 23) 1129 = 129 := by decide

/-- The 24th entry may be the boundary. -/
theorem witness_BoundaryHandsOverTheBuffer :
    (gatheringWith 23).fault = false ∧
    (gatheringWith 23).rxArmed = true ∧
    (gatheringWith 23).rxs = .gathering ∧
    (gatheringWith 23).endSeen = false ∧
    (gatheringWith 23).decodePending = false ∧
    ((gatheringWith 23).count (gatheringWith 23).active).toNat = 23 ∧
    ivAt (gatheringWith 23) 1130 = 130 ∧
    ivAt (gatheringWith 23) 1188 = 188 := by decide

theorem witness_PreemptedDecoderFindsItsBuffer :
    handed.decodePending = true ∧
    ∃ t, runEvents ([(true, (1026 : Stamp)), (false, 1129)].map fun e => Instr.edge e.1 e.2) handed = .next t ∧
      t.decodePending = true := ⟨rfl, _, rfl, rfl⟩

theorem witness_DecodeCommitsTheByte :
    handed.fault = false ∧ handed.decodePending = true ∧ (handed.count handed.completed).toNat ≤ 24 ∧
    (({ handed with count0 := 24 } : State).count handed.completed).toNat ≤ 24 := by decide

theorem witness_VoteToleratesThreeUnits :
    (∀ k : Nat, -3 ≤ (if k % 2 = 0 then 3 else -3 : Int) ∧ (if k % 2 = 0 then 3 else -3 : Int) ≤ 3) ∧
    130 ≤ (130 : Byte).toNat := by
  refine ⟨fun k => ?_, by decide⟩
  split <;> decide

theorem witness_ByteOnTheWireIsReceived :
    (rx .gathering).cfg.wf = true ∧ clampBeforeAlias (rx .gathering).cfg = true ∧
    (rx .gathering).time0.toNat < 2 ^ (rx .gathering).cfg.width ∧ (rx .gathering).fault = false ∧
    (rx .gathering).rxArmed = true ∧ (rx .gathering).rxs = .gathering ∧ (rx .gathering).endSeen = false ∧
    (rx .gathering).decodePending = false ∧ (rx .gathering).count (rx .gathering).active = 0 ∧
    (∀ k : Nat, -3 ≤ (fun _ => -3 : Nat → Int) k ∧ (fun _ => -3 : Nat → Int) k ≤ 3) := by
  refine ⟨by decide, by decide, by decide, rfl, rfl, rfl, rfl, rfl, rfl, fun k => by norm_num⟩

theorem witness_TxEnableArmsOrRaisesExclusion :
    (tx .message 0x35 4 0).fault = false ∧ (tx .message 0x35 4 0).rxArmed = false ∧
    (rx .idle).fault = false ∧ (rx .idle).rxArmed = true ∧
    ({ State.reset with fault := true } : State).fault = true := by decide

theorem witness_TxDisableStopsAtOnce :
    (tx .message 0x35 4 0).fault = false ∧ ({ State.reset with fault := true } : State).fault = true := by
  decide

/-- Both ends of the frame. -/
theorem witness_TickDrivesOneBit :
    (tx .message 0x35 10 0).fault = false ∧ (tx .message 0x35 10 0).txArmed = true ∧
    (tx .message 0x35 10 0).txs ≠ .done ∧ (tx .message 0x35 10 0).txBitsLeft.toNat = 10 ∧
    (tx .message 0x35 1 0).txBitsLeft.toNat = 1 ∧
    (after (.txTick none) (tx .message 0x35 10 0)).map State.txPin = some false ∧
    (after (.txTick none) (tx .message 0x35 1 0)).map State.txPin = some true := by decide

/-- Each clause at the repetition count where it ends or begins. -/
theorem witness_TickLoadsTheNextByte :
    (tx .idle 0 0 0).txBitsLeft = 0 ∧
    (after (.txTick none) (tx .idle 0 0 0)).map State.txs = some .preamble ∧
    (after (.txTick none) (tx .preamble 0xAA 0 3)).map State.txRep = some 4 ∧
    (after (.txTick none) (tx .preamble 0xAA 0 4)).map State.txs = some .sync ∧
    (after (.txTick none) { tx .idle 0 0 0 with cfg := { Config.vectors with preambleCount := 0 } }).map
      State.txs = some .sync ∧
    (after (.txTick none) (tx .sync 0xFF 0 1)).map State.txCur = some 0x00 ∧
    (after (.txTick (some 7)) (tx .sync 0x00 0 2)).map State.txs = some .message ∧
    (after (.txTick none) (tx .message 7 0 0)).map State.txs = some .training ∧
    (after (.txTick none) (tx .training 0xAA 0 1)).map State.txRep = some 2 ∧
    (after (.txTick none) { tx .sync 0 0 2 with cfg := { Config.vectors with trailerCount := 0 } }).map
      State.txRep = some 0 ∧
    (after (.txTick none) (tx .training 0xAA 0 2)).map State.up = some [.txDone] := by decide

theorem witness_TickInDoneKeepsTheLineIdle :
    (tx .done 0xAA 0 2).fault = false ∧ (tx .done 0xAA 0 2).txArmed = true ∧
    (tx .done 0xAA 0 2).txs = .done := by decide

theorem witness_AnswerIsReadOnlyByAFetch :
    isFetchTick (tx .message 0x35 5 0) = false ∧ isFetchTick (tx .sync 0xFF 0 1) = false ∧
    isFetchTick (tx .sync 0x00 0 2) = true := by decide

theorem witness_TransmissionHasItsShape :
    (rx .done).fault = false ∧ ({ rx .done with rxArmed := false } : State).rxArmed = false := by decide

theorem witness_TransmissionIsReceived :
    State.reset.cfg.wf = true ∧ clampBeforeAlias State.reset.cfg = true ∧ State.reset.fault = false ∧
    State.reset.txArmed = false ∧ 1 ≤ State.reset.cfg.trailerCount.toNat ∧
    State.reset.cfg.endMarker = some 0x35 ∧ [0x12, 0x35] = [0x12] ++ [(0x35 : Byte)] ∧
    (0x35 : Byte) ∉ [(0x12 : Byte)] ∧ State.reset.cfg.endMarker ≠ some 0xAA ∧
    (∀ x ∈ [(0x12 : Byte), 0x34], State.reset.cfg.endMarker ≠ some x) := by decide

theorem witness_RxEnableArmsOrRaisesExclusion :
    (rx .gathering).fault = false ∧ (rx .gathering).txArmed = false ∧ (tx .idle 0 0 0).fault = false ∧
    (tx .idle 0 0 0).txArmed = true ∧ ({ State.reset with fault := true } : State).fault = true := by decide

theorem witness_RxDisableStopsAtOnce :
    handed.fault = false ∧ ({ State.reset with fault := true } : State).fault = true := by decide

/-- The numbers where mapped and unmapped registers meet. -/
theorem witness_ReadRegEmitsTheView :
    (State.reset.view 0x27).isSome = true ∧ State.reset.view 0x28 = none ∧ State.reset.view 0x2F = none ∧
    (State.reset.view 0x30).isSome = true ∧ (State.reset.view 0x47).isSome = true ∧
    State.reset.view 0x48 = none ∧ State.reset.view 0xFF = none := by decide

/-- Entry 23 of buffer 1, the last of the view. -/
theorem witness_ViewShowsEveryField :
    ({ State.reset with log := [(47, 9)] } : State).view 0x47 = some 9 ∧
    ({ State.reset with log := [(47, 9)] } : State).view 0x27 = some 0 := by decide

theorem witness_ResetWritesEveryField : logRead handed.log .b0 1 = some 130 ∧ logRead [] .b1 23 = some 0 := by
  decide

theorem witness_PowerOnIsReset :
    (rx .gathering).cfg = State.reset.cfg ∧ (rx .gathering).trace = [] ∧ (rx .gathering).up = [] := by decide

theorem witness_DirectionSwitchIsSafe :
    (rx .gathering).fault = false ∧ (tx .message 0x35 4 0).fault = false := by decide

theorem witness_FaultedEngineIsQuiescent :
    ({ handed with fault := true, faultCode := .exclusion, trace := [0x90000000] } : State).fault = true ∧
    handed.view 0x0F = some 0 ∧ handed.view 0xFF = none ∧ IllegalWord Config.vectors 0x90000000 := by
  refine ⟨by decide, by decide, by decide, ?_⟩
  unfold IllegalWord; decide

theorem witness_OnlyHostCommandsWriteTheFault :
    (after (.edge true 1189) handed).isSome = true ∧
    (after .rxDisable handed).map State.fault = some false ∧
    (after .rxEnable (tx .idle 0 0 0)).map State.fault = some true ∧
    (after (.readReg 0x48) handed).map State.fault = some true := by decide

theorem witness_UpwardStreamOnlyGrows :
    (after (.edge false 1100) (rx .waitStop)).map State.up = some [.frameStart] ∧
    (after (.edge true 1100) (rx .waitStop)).map State.up = some [] := by decide

theorem witness_NoDataAfterTheFrameEnds :
    ({ rx .done with rxArmed := false } : State).rxs = .done ∧
    (∀ i ∈ [Instr.edge true 5, .decode, .readReg 1], i ≠ .rxEnable ∧ i ≠ .reset) ∧
    ∃ t, runEvents [.edge true 5, .decode, .readReg 1] { rx .done with rxArmed := false } = .next t :=
  ⟨rfl, by decide, _, rfl⟩

theorem witness_EventsWriteOnlyTheirFields :
    (after (.edge false 1130) (rx .gathering)).isSome = true ∧ (after .decode handed).isSome = true ∧
    (after (.txTick none) (tx .idle 0 0 0)).isSome = true := by decide

/-- A state in mid-frame, with a decode pending and an event waiting, meets the invariants. -/
theorem witness_invariants :
    ({ handed with trace := [0x11000401] } : State).Inv ∧
    ({ handed with trace := [0x11000401] } : State).BuffersInv ∧
    ∃ t, step { handed with trace := [0x11000401] } = .next t := by
  refine ⟨⟨by decide, by decide, ⟨by decide, by decide, by decide, by decide, by decide, by decide⟩, ?_,
    ⟨by decide, by decide, by decide, by decide⟩, ⟨by decide, by decide⟩, ?_⟩, ⟨by decide, by decide⟩, _, rfl⟩
  · unfold State.Exclusive; decide
  · unfold State.FaultFlags; decide

theorem witness_ReceiveAndTransmitAreNeverArmedTogether :
    ({ rx .idle with trace := [0x60000000] } : State).Exclusive ∧
    ∃ t, step { rx .idle with trace := [0x60000000] } = .next t := by
  refine ⟨?_, _, rfl⟩
  unfold State.Exclusive; decide

theorem witness_StepKeepsTheEndMarkerFlag :
    ({ marked with trace := [0x11000401] } : State).EndSeenInv ∧
    ∃ t, step { marked with trace := [0x11000401] } = .next t := by
  refine ⟨?_, _, rfl⟩
  unfold State.EndSeenInv; decide

theorem witness_StepKeepsTheCursor :
    ({ tx .training 0xAA 0 2 with trace := [0x30000000] } : State).CursorInv ∧
    ∃ t, step { tx .training 0xAA 0 2 with trace := [0x30000000] } = .next t := by
  refine ⟨?_, _, rfl⟩
  show 1 ≤ (2 : Byte).toNat ∧ (2 : Byte).toNat ≤ (2 : Byte).toNat ∧ (0xAA : Byte) = trainingByte
  decide

end Sys2Proof.Tests
end

/-! ## What an event can do

`Effect i s t` lists the ways in which event `i` takes `s` to `t`, each with what the invariants need of its
guard; `effect_of_exec` says that there are no others. Every invariant below is a case analysis over it. -/

namespace Sys2Proof.Machine

/-- A state whose edges the frame/sync detector handles, before a frame (R128). -/
def RxState.Scanning (r : RxState) : Prop := r ≠ .gathering ∧ r ≠ .done ∧ r ≠ .frameStart

/-- The BitInterval of an edge at `ts` (R101). -/
abbrev State.intervalAt (s : State) (ts : Stamp) : Byte := interval s.cfg s.time0 (sampleNow s.cfg ts)

/-- The state after `Append(iv)`, where the entry fits in the buffer (R149). -/
def State.stored (s : State) (iv : Byte) : State :=
  { s.setCount s.active (s.count s.active + 1) with
    log := s.log.writeCell (logAddr s.active (s.count s.active).toNat) iv }

@[simp] theorem State.stored_endSeen (s : State) (iv : Byte) : (s.stored iv).endSeen = s.endSeen := rfl

/-- The ways in which an event changes the state. -/
inductive Effect : Instr → State → State → Prop
  /-- Masked, faulted or without a request (R183, R237). -/
  | unchanged {i : Instr} {s : State} : Effect i s s
  /-- A scanning transition (R120 to R124). -/
  | scan {l : Bool} {ts : Stamp} {s : State} {r : RxState} :
      s.rxs.Scanning → r.Scanning →
      Effect (.edge l ts) s ((s.preambleUpdate (s.intervalAt ts)).scanTo r (sampleNow s.cfg ts))
  /-- Frame start (R126). -/
  | startFrame {l : Bool} {ts : Stamp} {s : State} :
      s.rxs = .waitStop →
      Effect (.edge l ts) s ((s.preambleUpdate (s.intervalAt ts)).startFrame (sampleNow s.cfg ts))
  /-- Frame end (R150). -/
  | terminate {l : Bool} {ts : Stamp} {s : State} {c : EndCause} :
      gatherEnd l (s.intervalAt ts) s = some c →
      Effect (.edge l ts) s (s.terminate c)
  /-- An ordinary edge (R142). -/
  | append {l : Bool} {ts : Stamp} {s : State} :
      s.rxArmed = true → s.rxs = .gathering → gatherEnd l (s.intervalAt ts) s = none →
      isBoundary l (s.intervalAt ts) = false → (s.count s.active).toNat < edgeCap →
      Effect (.edge l ts) s (s.stored (s.intervalAt ts))
  /-- A byte boundary (R143). -/
  | boundary {l : Bool} {ts : Stamp} {s : State} :
      s.rxArmed = true → s.rxs = .gathering → gatherEnd l (s.intervalAt ts) s = none →
      isBoundary l (s.intervalAt ts) = true → (s.count s.active).toNat < edgeCap →
      Effect (.edge l ts) s ((s.stored (s.intervalAt ts)).handoff (sampleNow s.cfg ts))
  /-- A requested DECODE (R168). -/
  | commit {s : State} {x : Byte} :
      s.decodePending = true →
      Effect .decode s (s.commit x)
  /-- A tick in Done (R189). -/
  | tickInDone {a : Option Byte} {s : State} :
      s.txs = .done →
      Effect (.txTick a) s { s with txPin := true }
  /-- A tick with nothing left to send (R188). -/
  | tickFinish {a : Option Byte} {s : State} :
      s.txs ≠ .done → s.txBitsLeft = 0 → (loadNext a s).txs = .done →
      Effect (.txTick a) s
        { s with
          txs := (loadNext a s).txs
          txCur := (loadNext a s).txCur
          txRep := (loadNext a s).txRep
          txPin := true
          txDone := true
          up := s.up ++ [.txDone] }
  /-- A tick that loads a byte and drives its start bit (R185, R186). -/
  | tickLoad {a : Option Byte} {s : State} :
      s.txArmed = true → s.txs ≠ .done → s.txBitsLeft = 0 → (loadNext a s).txs ≠ .done →
      Effect (.txTick a) s
        { s with
          txs := (loadNext a s).txs
          txCur := (loadNext a s).txCur
          txRep := (loadNext a s).txRep
          txPin := false
          txBitsLeft := 9 }
  /-- A tick in the middle of a frame (R186). -/
  | tickBit {a : Option Byte} {s : State} :
      s.txArmed = true → s.txs ≠ .done → s.txBitsLeft ≠ 0 → s.txBitsLeft.toNat ≤ frameLen →
      Effect (.txTick a) s
        { s with
          txPin := frameBit s.cfg s.txCur (frameLen - s.txBitsLeft.toNat)
          txBitsLeft := s.txBitsLeft - 1 }
  /-- An engine fault of a host command (R211, R181, R214). -/
  | raise {i : Instr} {s : State} {k : FaultCode} :
      k ≠ .none →
      Effect i s (s.raiseFault k)
  /-- RX_ENABLE (R210). -/
  | armReceive {s : State} :
      s.txArmed = false →
      Effect .rxEnable s s.armReceive
  /-- RX_DISABLE (R212). -/
  | disarmReceive {s : State} : Effect .rxDisable s { s with rxArmed := false, decodePending := false }
  /-- TX_ENABLE (R180). -/
  | armTransmit {s : State} :
      s.rxArmed = false →
      Effect .txEnable s s.armTransmit
  /-- TX_DISABLE (R184). -/
  | disarmTransmit {s : State} : Effect .txDisable s { s with txArmed := false, txPin := true }
  /-- READ_REG of a mapped number (R214). -/
  | readReg {n v : Byte} {s : State} : Effect (.readReg n) s (s.emit (.reg n v))
  /-- RESET (R216). -/
  | reset {s : State} : Effect .reset s { State.resetWith s.cfg with trace := s.trace, up := s.up }

/-- LoadNext as an update of the three fields it writes (R185). -/
theorem loadNext_eq (a : Option Byte) (s : State) :
    loadNext a s =
      { s with
        txs := (loadNext a s).txs
        txCur := (loadNext a s).txCur
        txRep := (loadNext a s).txRep } := by
  obtain ⟨p, x, r, h⟩ := loadNext_frame a s
  rw [h]

/-- A loaded byte's first bit is the start bit (R186). -/
theorem driveBit_start (s : State) :
    driveBit { s with txBitsLeft := BitVec.ofNat 4 frameLen } = .next { s with txPin := false, txBitsLeft := 9 } := by
  simp [driveBit, frameBit, frameLen]

/-- The effects of EDGE (R100). -/
theorem effect_of_execEdge {l : Bool} {ts : Stamp} {s t : State} (h : execEdge l ts s = .next t) :
    Effect (.edge l ts) s t := by
  rcases execEdge_next h with ⟨-, rfl⟩ | ⟨-, harmed, hrule⟩
  · exact .unchanged
  rcases edgeRule_next hrule with ⟨r, hg, hd, hf, rg, rd, rf, rfl⟩ | ⟨hw, -, rfl⟩ | ⟨hg, hgather⟩
  · exact .scan ⟨hg, hd, hf⟩ ⟨rg, rd, rf⟩
  · exact .startFrame hw
  · rw [State.preambleUpdate_rxs] at hg
    rw [State.preambleUpdate_of_not_counted (by rw [hg]; rfl)] at hgather
    rcases gatherEdge_next hgather with ⟨c, hc, rfl⟩ | ⟨hc, u, hu, rfl⟩
    · exact .terminate hc
    · obtain ⟨hlt, rfl⟩ := State.append_eq_some_iff.1 hu
      split
      · next hbound => exact .boundary harmed hg hc hbound hlt
      · next hbound => exact .append harmed hg hc (by simpa using hbound) hlt

/-- The effects of TX_TICK (R182). -/
theorem effect_of_execTxTick {a : Option Byte} {s t : State} (h : execTxTick a s = .next t) :
    Effect (.txTick a) s t := by
  rcases execTxTick_next h with ⟨-, rfl⟩ | ⟨-, harmed, hd⟩
  · exact .unchanged
  rcases hd with ⟨hd, rfl⟩ | ⟨hd, hb, hl, rfl⟩ | ⟨hd, hb, hl, hbit⟩ | ⟨hd, hb, hbit⟩
  · exact .tickInDone hd
  · have he := Effect.tickFinish hd hb hl
    rwa [State.finish, loadNext_eq a s]
  · have he := Effect.tickLoad harmed hd hb hl
    rw [driveBit_start] at hbit
    cases hbit
    rwa [loadNext_eq a s]
  · obtain ⟨hle, rfl⟩ := driveBit_next hbit
    exact .tickBit harmed hd hb hle

/-- Every next state of an event is one of its effects. -/
theorem effect_of_exec {i : Instr} {s t : State} (h : exec i s = .next t) : Effect i s t := by
  cases i with
  | edge l ts => exact effect_of_execEdge h
  | decode =>
    rcases execDecode_next h with ⟨-, rfl⟩ | ⟨-, hp, es, -, rfl⟩
    · exact .unchanged
    · exact .commit hp
  | txTick a => exact effect_of_execTxTick h
  | rxEnable =>
    rcases execRxEnable_next h with ⟨-, rfl⟩ | ⟨-, -, rfl⟩ | ⟨-, ha, rfl⟩
    · exact .unchanged
    · exact .raise (by simp)
    · exact .armReceive ha
  | rxDisable =>
    rcases execRxDisable_next h with ⟨-, rfl⟩ | ⟨-, rfl⟩
    · exact .unchanged
    · exact .disarmReceive
  | txEnable =>
    rcases execTxEnable_next h with ⟨-, rfl⟩ | ⟨-, -, rfl⟩ | ⟨-, ha, rfl⟩
    · exact .unchanged
    · exact .raise (by simp)
    · exact .armTransmit ha
  | txDisable =>
    rcases execTxDisable_next h with ⟨-, rfl⟩ | ⟨-, rfl⟩
    · exact .unchanged
    · exact .disarmTransmit
  | readReg n =>
    rcases execReadReg_next h with ⟨-, rfl⟩ | ⟨v, -, rfl⟩
    · exact .raise (by simp)
    · exact .readReg
  | reset =>
    rw [execReset_next h]
    exact .reset

/-- What the delivery of a word, an illegal word and every effect keep, a step keeps (R56, R217). -/
theorem step_keeps {P : State → Prop}
    (delivery : ∀ (s : State) (rest : List Word), P s → P { s with trace := rest })
    (illegal : ∀ s : State, P s → P (illegalWord s))
    (effect : ∀ {i : Instr} {s t : State}, P s → Effect i s t → P t)
    {s t : State} (hp : P s) (h : step s = .next t) : P t := by
  rcases step_next h with ⟨-, rfl⟩ | ⟨w, rest, -, ⟨i, -, hi⟩ | ⟨e, -, rfl⟩⟩
  · exact hp
  · exact effect (delivery s rest hp) (effect_of_exec hi)
  · exact illegal _ (delivery s rest hp)

end Sys2Proof.Machine

/-! ## Receive and transmit are never armed together -/

namespace Sys2Proof.Machine

theorem Effect.keeps_exclusive {i : Instr} {s t : State} (h : s.Exclusive) (he : Effect i s t) : t.Exclusive := by
  cases he with
  | terminate => simp [State.Exclusive]
  | armReceive ha => simp [State.Exclusive, ha]
  | disarmReceive => simp [State.Exclusive]
  | armTransmit ha => simp [State.Exclusive, ha]
  | disarmTransmit => simp [State.Exclusive]
  | reset => simp [State.Exclusive, State.resetWith]
  | _ => exact h

theorem step_keeps_exclusive {s t : State} (h : s.Exclusive) (hs : step s = .next t) : t.Exclusive :=
  step_keeps (fun _ _ h => h) (fun _ h => h) Effect.keeps_exclusive h hs

theorem reset_exclusive : State.reset.Exclusive := by simp [State.Exclusive, State.reset, State.resetWith]

/-- Settles O55: only RX_ENABLE and TX_ENABLE arm a direction, and each checks that the other is disarmed. -/
theorem receiveAndTransmitAreNeverArmedTogether : Obligations.ReceiveAndTransmitAreNeverArmedTogether :=
  ⟨reset_exclusive, fun _ _ => step_keeps_exclusive⟩

end Sys2Proof.Machine

/-! ## The end-marker flag -/

namespace Sys2Proof.Machine

/-- An edge is gathered only where the end marker has not been seen (R147). -/
theorem endSeen_of_gatherEnd_eq_none {l : Bool} {iv : Byte} {s : State} (h : gatherEnd l iv s = none) :
    s.endSeen = false := by
  obtain ⟨-, -, hseen, -⟩ := gatherEnd_eq_none_iff.1 h
  exact hseen

/-- A commit sets the flag for its own byte alone, because no commit follows a set flag (R168). -/
theorem State.EndSeenInv.commit {s : State} (h : s.EndSeenInv) (hp : s.decodePending = true) (x : Byte) :
    (s.commit x).EndSeenInv := by
  have hclear : s.endSeen = false := by
    by_contra hset
    obtain ⟨-, hnot⟩ := h (by simpa using hset)
    simp [hp] at hnot
  intro hseen
  have hmarker : s.cfg.endMarker = some x := by
    by_contra hne
    simp [endSeenNext, hne, hclear] at hseen
  exact ⟨hmarker, rfl⟩

theorem Effect.keeps_endSeenInv {i : Instr} {s t : State} (h : s.EndSeenInv) (he : Effect i s t) :
    t.EndSeenInv := by
  cases he with
  | startFrame => simp [State.EndSeenInv]
  | terminate =>
    intro hseen
    obtain ⟨hmarker, -⟩ := h hseen
    exact ⟨hmarker, rfl⟩
  | boundary _ _ hg => simp [State.EndSeenInv, endSeen_of_gatherEnd_eq_none hg]
  | commit hp => exact h.commit hp _
  | armReceive => simp [State.EndSeenInv]
  | disarmReceive =>
    intro hseen
    obtain ⟨hmarker, -⟩ := h hseen
    exact ⟨hmarker, rfl⟩
  | reset => simp [State.EndSeenInv, State.resetWith]
  | _ => exact h

/-- Settles O59: the flag is set by the commit of the end marker alone, which takes the request, and no
boundary is handed over while it is set. -/
theorem stepKeepsTheEndMarkerFlag : Obligations.StepKeepsTheEndMarkerFlag :=
  fun _ _ => step_keeps (fun _ _ h => h) (fun _ h => h) Effect.keeps_endSeenInv

end Sys2Proof.Machine

/-! ## The byte-emission cursor -/

namespace Sys2Proof.Machine

/-- What LoadNext leaves: a phase has been entered, and the cursor is right for it (R185). -/
def State.Loaded (s : State) : Prop := s.txs ≠ .idle ∧ s.CursorInv

/-- Between Idle and Done the cursor does not depend on how many bits are left, nor on any other field. -/
theorem State.CursorInv.congr {s t : State} (h : s.CursorInv) (hidle : s.txs ≠ .idle) (hdone : s.txs ≠ .done)
    (hcfg : t.cfg = s.cfg) (htxs : t.txs = s.txs) (hcur : t.txCur = s.txCur) (hrep : t.txRep = s.txRep) :
    t.CursorInv := by
  unfold State.CursorInv at h ⊢
  rw [htxs, hcfg, hcur, hrep]
  cases hp : s.txs <;> simp_all

/-- Counting one more of `n` bytes does not wrap. -/
theorem succ_mem_range {r n : Byte} (h : r.toNat < n.toNat) : 1 ≤ (r + 1).toNat ∧ (r + 1).toNat ≤ n.toNat := by
  constructor <;> bv_omega

theorem loadTraining_loaded {s : State} (hp : s.txs = .training) (hb : s.txBitsLeft = 0)
    (hr : s.txRep.toNat ≤ s.cfg.trailerCount.toNat) : (loadTraining s).Loaded := by
  unfold loadTraining
  split
  · next hlt => exact ⟨by simp [hp], by simpa [State.CursorInv, hp] using succ_mem_range hlt⟩
  · next hge =>
    exact ⟨by simp, hb, BitVec.eq_of_toNat_eq (le_antisymm hr (not_lt.1 hge))⟩

theorem loadMessage_loaded {s : State} (a : Option Byte) (hp : s.txs = .message) (hb : s.txBitsLeft = 0)
    (hr : s.txRep = 0) : (loadMessage a s).Loaded := by
  cases a with
  | none => exact loadTraining_loaded rfl hb (Nat.zero_le _)
  | some x => simp [loadMessage, State.Loaded, State.CursorInv, hp, hr]

theorem loadSync_loaded {s : State} (a : Option Byte) (hp : s.txs = .sync) (hb : s.txBitsLeft = 0)
    (hr : s.txRep = 0 ∨ s.txRep = 1 ∨ s.txRep = 2) : (loadSync a s).Loaded := by
  unfold loadSync
  rcases hr with hr | hr | hr
  · simp [hr, hp, State.Loaded, State.CursorInv]
  · simp [hr, hp, State.Loaded, State.CursorInv]
  · rw [if_neg (by simp [hr])]
    exact loadMessage_loaded a rfl hb rfl

theorem loadPreamble_loaded {s : State} (a : Option Byte) (hp : s.txs = .preamble) (hb : s.txBitsLeft = 0) :
    (loadPreamble a s).Loaded := by
  unfold loadPreamble
  split
  · next hlt => exact ⟨by simp [hp], by simpa [State.CursorInv, hp] using succ_mem_range hlt⟩
  · exact loadSync_loaded a rfl hb (.inl rfl)

/-- LoadNext goes from the cursor of one phase to the cursor of the next (R185). -/
theorem loadNext_loaded {s : State} (a : Option Byte) (h : s.CursorInv) (hb : s.txBitsLeft = 0) :
    (loadNext a s).Loaded := by
  unfold loadNext
  cases hp : s.txs with simp only [State.CursorInv, hp] at h ⊢
  | idle => exact loadPreamble_loaded a rfl hb
  | preamble => exact loadPreamble_loaded a hp hb
  | sync =>
    rcases h with ⟨hr, -⟩ | ⟨hr, -⟩
    · exact loadSync_loaded a hp hb (.inr (.inl hr))
    · exact loadSync_loaded a hp hb (.inr (.inr hr))
  | message => exact loadMessage_loaded a hp hb h
  | training =>
    obtain ⟨-, hle, -⟩ := h
    exact loadTraining_loaded hp hb hle
  | done => exact ⟨by simp [hp], by simpa only [State.CursorInv, hp] using h⟩

theorem Effect.keeps_cursorInv {i : Instr} {s t : State} (h : s.CursorInv) (he : Effect i s t) : t.CursorInv := by
  cases he with
  | @tickFinish a _ _ hb hl =>
    obtain ⟨-, hc⟩ := loadNext_loaded a h hb
    rw [loadNext_eq] at hc
    exact hc
  | @tickLoad a _ _ _ hb hl =>
    obtain ⟨hidle, hc⟩ := loadNext_loaded a h hb
    refine hc.congr hidle hl ?_ rfl rfl rfl
    rw [loadNext_eq]
  | tickBit _ hd hb =>
    have hidle : s.txs ≠ .idle := by
      intro hi
      simp only [State.CursorInv, hi] at h
      obtain ⟨hzero, -⟩ := h
      exact hb hzero
    exact h.congr hidle hd rfl rfl rfl rfl
  | armTransmit => exact ⟨rfl, rfl, rfl⟩
  | reset => exact ⟨rfl, rfl, rfl⟩
  | _ => exact h

/-- Settles O60: LoadNext enters a phase with its cursor, and no bits are left in Idle and Done. -/
theorem stepKeepsTheCursor : Obligations.StepKeepsTheCursor :=
  fun _ _ => step_keeps (fun _ _ h => h) (fun _ h => h) Effect.keeps_cursorInv

end Sys2Proof.Machine

/-! ## The main invariant, part by part -/

namespace Sys2Proof.Machine

/-! ### Parameters and log -/

/-- No event writes a parameter (10_state.md R47). -/
theorem Effect.cfg_eq {i : Instr} {s t : State} (he : Effect i s t) : t.cfg = s.cfg := by
  cases he <;> rfl

theorem step_keeps_config {s t : State} (h : s.cfg.wf = true) (hs : step s = .next t) : t.cfg.wf = true :=
  step_keeps (P := fun s => s.cfg.wf = true) (fun _ _ h => h) (fun _ h => h) (fun h he => he.cfg_eq ▸ h) h hs

theorem Effect.keeps_memory {i : Instr} {s t : State} (h : s.log.wf = true) (he : Effect i s t) :
    t.log.wf = true := by
  cases he with
  | append _ _ _ _ hlt => exact Memory.wf_writeCell h (logAddr_lt hlt) _
  | boundary _ _ _ _ hlt => exact Memory.wf_writeCell h (logAddr_lt hlt) _
  | reset => exact Memory.wf_nil
  | _ => exact h

theorem step_keeps_memory {s t : State} (h : s.log.wf = true) (hs : step s = .next t) : t.log.wf = true :=
  step_keeps (P := fun s => s.log.wf = true) (fun _ _ h => h) (fun _ h => h) Effect.keeps_memory h hs

/-! ### Legal values -/

theorem sampleNow_lt (c : Config) (ts : Stamp) : (sampleNow c ts).toNat < 2 ^ c.width := by
  rw [sampleNow, BitVec.toNat_ofNat]
  exact lt_of_le_of_lt (Nat.mod_le _ _) (Nat.mod_lt _ (Nat.two_pow_pos _))

theorem preambleNext_le {r : RxState} {iv : Byte} {cnt : BitVec 7} (h : cnt.toNat ≤ preambleCap) :
    (preambleNext r iv cnt).toNat ≤ preambleCap := by
  unfold preambleNext
  split
  · split
    · rw [BitVec.toNat_ofNat]
      exact le_trans (Nat.mod_le _ _) (min_le_right _ _)
    · simp
  · exact h

theorem count_succ_le {n : BitVec 5} (h : n.toNat < edgeCap) : (n + 1).toNat ≤ edgeCap := by
  simp only [edgeCap] at *
  bv_omega

theorem ite_count_le {p : Prop} [Decidable p] {v n : BitVec 5} (hv : v.toNat ≤ edgeCap) (hn : n.toNat ≤ edgeCap) :
    (if p then v else n).toNat ≤ edgeCap := by
  split <;> assumption

/-- Setting one count to a legal value. -/
theorem State.FieldsLegal.setCount {s : State} (h : s.FieldsLegal) (b : Buf) {v : BitVec 5}
    (hv : v.toNat ≤ edgeCap) : (s.setCount b v).FieldsLegal :=
  { h with count0 := ite_count_le hv h.count0, count1 := ite_count_le hv h.count1 }

theorem State.FieldsLegal.stored {s : State} (h : s.FieldsLegal) (hlt : (s.count s.active).toNat < edgeCap)
    (iv : Byte) : (s.stored iv).FieldsLegal :=
  { h.setCount s.active (count_succ_le hlt) with }

theorem State.resetWith_fieldsLegal (c : Config) : (State.resetWith c).FieldsLegal where
  time0 := Nat.two_pow_pos _
  preambleCnt := Nat.zero_le _
  count0 := Nat.zero_le _
  count1 := Nat.zero_le _
  txBitsLeft := Nat.zero_le _
  notFrameStart := by simp [State.resetWith]

theorem Effect.keeps_fieldsLegal {i : Instr} {s t : State} (h : s.FieldsLegal) (he : Effect i s t) :
    t.FieldsLegal := by
  cases he with
  | @scan _ ts _ _ _ hr =>
    obtain ⟨-, -, hr⟩ := hr
    exact { h with
      time0 := sampleNow_lt s.cfg ts, preambleCnt := preambleNext_le h.preambleCnt, notFrameStart := hr }
  | @startFrame _ ts =>
    exact { h.setCount s.active (Nat.zero_le _) with
      time0 := sampleNow_lt s.cfg ts, preambleCnt := preambleNext_le h.preambleCnt, notFrameStart := by simp }
  | terminate => exact { h with notFrameStart := by simp }
  | append _ _ _ _ hlt => exact h.stored hlt _
  | @boundary _ ts _ _ _ _ _ hlt =>
    exact { (h.stored hlt _).setCount _ (Nat.zero_le _) with time0 := sampleNow_lt s.cfg ts }
  | tickLoad => exact { h with txBitsLeft := by simp [frameLen] }
  | tickBit _ _ hb hle =>
    refine { h with txBitsLeft := ?_ }
    have hpos : s.txBitsLeft.toNat ≠ 0 := fun h0 => hb (BitVec.eq_of_toNat_eq h0)
    simp only [frameLen] at *
    bv_omega
  | armReceive =>
    exact { h with
      time0 := Nat.two_pow_pos _, preambleCnt := Nat.zero_le _, count0 := Nat.zero_le _
      count1 := Nat.zero_le _, notFrameStart := by simp }
  | armTransmit => exact { h with txBitsLeft := Nat.zero_le _ }
  | reset => exact { State.resetWith_fieldsLegal s.cfg with }
  | _ => exact { h with }

theorem step_keeps_fieldsLegal {s t : State} (h : s.FieldsLegal) (hs : step s = .next t) : t.FieldsLegal :=
  step_keeps (fun _ _ h => { h with }) (fun _ h => { h with }) Effect.keeps_fieldsLegal h hs

/-! ### The receive flags -/

/-- The cause of a frame end is never the empty one (R144). -/
theorem ne_none_of_gatherEnd_eq_some {l : Bool} {iv : Byte} {s : State} {c : EndCause}
    (h : gatherEnd l iv s = some c) : c ≠ .none := by
  rintro rfl
  unfold gatherEnd at h
  repeat' split at h
  all_goals simp at h

/-- Outside a frame nothing is pending and no frame has ended. -/
theorem State.ReceiveFlags.of_scanning {s : State} (h : s.ReceiveFlags) (hs : s.rxs.Scanning) :
    s.decodePending = false ∧ s.rxDone = false ∧ s.endCause = .none := by
  obtain ⟨hg, hd, -⟩ := hs
  have hpend : s.decodePending = false := by
    by_contra hp
    obtain ⟨-, hin⟩ := h.pendingInFrame (by simpa using hp)
    exact hg hin
  have hdone : s.rxDone = false := by
    by_contra hp
    exact hd (h.doneIff.1 (by simpa using hp))
  have hcause : s.endCause = .none := by
    by_contra hc
    simp [h.causeIff.2 hc] at hdone
  exact ⟨hpend, hdone, hcause⟩

/-- The receive flags of a state in which nothing is pending and no frame has ended. -/
theorem State.ReceiveFlags.of_clear {s : State} (hd : s.rxs ≠ .done) (hpend : s.decodePending = false)
    (hdone : s.rxDone = false) (hcause : s.endCause = .none) : s.ReceiveFlags where
  doneDisarmed h := absurd h hd
  pendingInFrame h := by simp [hpend] at h
  doneIff := by simp [hdone, hd]
  causeIff := by simp [hdone, hcause]

theorem Effect.keeps_receiveFlags {i : Instr} {s t : State} (h : s.ReceiveFlags) (he : Effect i s t) :
    t.ReceiveFlags := by
  cases he with
  | scan hs hr =>
    obtain ⟨hpend, hdone, hcause⟩ := h.of_scanning hs
    obtain ⟨-, hr, -⟩ := hr
    exact .of_clear hr hpend hdone hcause
  | startFrame hw =>
    obtain ⟨hpend, hdone, hcause⟩ := h.of_scanning (by simp [RxState.Scanning, hw])
    exact .of_clear (by simp) hpend hdone hcause
  | terminate hg =>
    exact
      { doneDisarmed := fun _ => rfl
        pendingInFrame := by simp
        doneIff := by simp
        causeIff := by simp [ne_none_of_gatherEnd_eq_some hg] }
  | boundary ha hg => exact { h with pendingInFrame := fun _ => ⟨ha, hg⟩ }
  | commit => exact { h with pendingInFrame := by simp }
  | armReceive => exact .of_clear (by simp) rfl rfl rfl
  | disarmReceive => exact { h with doneDisarmed := fun _ => rfl, pendingInFrame := by simp }
  | reset => exact .of_clear (by simp [State.resetWith]) rfl rfl rfl
  | _ => exact { h with }

theorem step_keeps_receiveFlags {s t : State} (h : s.ReceiveFlags) (hs : step s = .next t) : t.ReceiveFlags :=
  step_keeps (fun _ _ h => { h with }) (fun _ h => { h with }) Effect.keeps_receiveFlags h hs

/-! ### The transmit flags -/

theorem State.TransmitFlags.txDone_eq_false {s : State} (h : s.TransmitFlags) (hd : s.txs ≠ .done) :
    s.txDone = false := by
  by_contra ht
  exact hd (h.doneIff.1 (by simpa using ht))

theorem Effect.keeps_transmitFlags {i : Instr} {s t : State} (h : s.TransmitFlags) (he : Effect i s t) :
    t.TransmitFlags := by
  cases he with
  | tickInDone => exact { h with idleLine := fun _ => rfl }
  | tickFinish _ _ hl => exact ⟨by simp [hl], fun _ => rfl⟩
  | tickLoad ha hd _ hl => exact ⟨by simp [hl, h.txDone_eq_false hd], by simp [ha]⟩
  | tickBit ha => exact { h with idleLine := by simp [ha] }
  | armTransmit => exact ⟨by simp, fun _ => rfl⟩
  | disarmTransmit => exact { h with idleLine := fun _ => rfl }
  | reset => exact ⟨by simp [State.resetWith], fun _ => rfl⟩
  | _ => exact { h with }

theorem step_keeps_transmitFlags {s t : State} (h : s.TransmitFlags) (hs : step s = .next t) : t.TransmitFlags :=
  step_keeps (fun _ _ h => { h with }) (fun _ h => { h with }) Effect.keeps_transmitFlags h hs

/-! ### The fault flag -/

/-- Recording a fault keeps the flag with its code, whether or not one is recorded already (R236). -/
theorem State.FaultFlags.raiseFault {s : State} (h : s.FaultFlags) {k : FaultCode} (hk : k ≠ .none) :
    (s.raiseFault k).FaultFlags := by
  cases hf : s.fault with
  | false => simp [State.FaultFlags, hf, hk]
  | true => simpa [State.FaultFlags, hf] using h.1 hf

theorem Effect.keeps_faultFlags {i : Instr} {s t : State} (h : s.FaultFlags) (he : Effect i s t) :
    t.FaultFlags := by
  cases he with
  | raise hk => exact h.raiseFault hk
  | reset => simp [State.FaultFlags, State.resetWith]
  | _ => exact h

theorem step_keeps_faultFlags {s t : State} (h : s.FaultFlags) (hs : step s = .next t) : t.FaultFlags :=
  step_keeps (fun _ _ h => h) (fun _ h => h.raiseFault (by simp)) Effect.keeps_faultFlags h hs

/-! ### The whole -/

/-- Settles O54: each part of the invariant is kept by itself. -/
theorem stepKeepsTheInvariant : Obligations.StepKeepsTheInvariant := fun _ _ h hs =>
  { config := step_keeps_config h.config hs
    memory := step_keeps_memory h.memory hs
    fields := step_keeps_fieldsLegal h.fields hs
    exclusive := step_keeps_exclusive h.exclusive hs
    receive := step_keeps_receiveFlags h.receive hs
    transmit := step_keeps_transmitFlags h.transmit hs
    fault := step_keeps_faultFlags h.fault hs }

/-- The main invariant at power-on (R44, R261). -/
theorem reset_inv : State.reset.Inv where
  config := by decide
  memory := Memory.wf_nil
  fields := State.resetWith_fieldsLegal _
  exclusive := reset_exclusive
  receive := .of_clear (by simp [State.reset, State.resetWith]) rfl rfl rfl
  transmit := ⟨by simp [State.reset, State.resetWith], fun _ => rfl⟩
  fault := by simp [State.FaultFlags, State.reset, State.resetWith]

/-- No frame is gathered at power-on, and no decode is pending. -/
theorem reset_buffersInv : State.reset.BuffersInv :=
  ⟨by simp [State.reset, State.resetWith], by simp [State.reset, State.resetWith]⟩

theorem reset_endSeenInv : State.reset.EndSeenInv := by simp [State.EndSeenInv, State.reset, State.resetWith]

theorem reset_cursorInv : State.reset.CursorInv := ⟨rfl, rfl, rfl⟩

/-- Settles O56: RESET leaves every direction idle, nothing gathered and nothing pending. -/
theorem resetMeetsTheInvariants : Obligations.ResetMeetsTheInvariants :=
  ⟨reset_inv, reset_buffersInv, reset_endSeenInv, reset_cursorInv⟩

end Sys2Proof.Machine

/-! ## The upward stream -/

namespace Sys2Proof.Machine

/-- Settles O51: each effect emits at most one event, and the effects of an agent emit its kinds alone. -/
theorem upwardStreamOnlyGrows : Obligations.UpwardStreamOnlyGrows := by
  intro i s t h
  cases effect_of_exec h with
  | startFrame => exact .inr ⟨_, rfl, rfl⟩
  | terminate => exact .inr ⟨_, rfl, rfl, rfl⟩
  | commit => exact .inr ⟨_, rfl, rfl, rfl⟩
  | tickFinish => exact .inr ⟨_, rfl, rfl⟩
  | readReg => exact .inr ⟨_, rfl, rfl⟩
  | _ => exact .inl rfl

end Sys2Proof.Machine

/-! ## Words and events -/

namespace Sys2Proof.Machine

/-! ### Fields of a word -/

/-- A field written as two parts holds each part at its own place. -/
theorem extractLsb'_eq_append_iff {k n m : Nat} {x : BitVec k} {lo : Nat} {a : BitVec n} {b : BitVec m} :
    x.extractLsb' lo (n + m) = a ++ b ↔ x.extractLsb' (lo + m) n = a ∧ x.extractLsb' lo m = b := by
  rw [← BitVec.extractLsb'_append_extractLsb'_eq_extractLsb' (x := x) (start₁ := lo) (start₂ := lo + m) rfl]
  constructor
  · intro h
    constructor
    · simpa only [BitVec.extractLsb'_append_eq_left] using congrArg (BitVec.extractLsb' m n) h
    · simpa only [BitVec.extractLsb'_append_eq_right] using congrArg (BitVec.extractLsb' 0 m) h
  · rintro ⟨rfl, rfl⟩
    rfl

theorem extractLsb'_one_eq_ofBool {k : Nat} (x : BitVec k) (j : Nat) :
    x.extractLsb' j 1 = BitVec.ofBool (x.getLsbD j) := by
  ext t ht
  obtain rfl : t = 0 := by omega
  simp

/-- The same with a flag between the two parts. -/
theorem extractLsb'_eq_append_flag_iff {k n m : Nat} {x : BitVec k} {lo : Nat} {a : BitVec n} {v : Bool}
    {b : BitVec m} :
    x.extractLsb' lo (n + 1 + m) = a ++ BitVec.ofBool v ++ b ↔
      x.extractLsb' (lo + m + 1) n = a ∧ x.getLsbD (lo + m) = v ∧ x.extractLsb' lo m = b := by
  rw [extractLsb'_eq_append_iff, extractLsb'_eq_append_iff, extractLsb'_one_eq_ofBool,
    BitVec.ofBool_eq_iff_eq, and_assoc]

/-- A field as the number the rules speak of (R71). -/
theorem toNat_extractLsb'_eq_wordBits (w : Word) (lo len : Nat) :
    (w.extractLsb' lo len).toNat = wordBits w lo (lo + len) := by
  simp [wordBits, Nat.shiftRight_eq_div_pow]

theorem extractLsb'_eq_zero_iff (w : Word) (lo len : Nat) :
    w.extractLsb' lo len = 0#len ↔ wordBits w lo (lo + len) = 0 := by
  rw [← toNat_extractLsb'_eq_wordBits, ← BitVec.toNat_inj, BitVec.toNat_zero]

theorem validField_eq_false_iff (w : Word) : validField w = false ↔ wordBits w 8 9 = 0 := by
  rw [← extractLsb'_eq_zero_iff w 8 1, extractLsb'_one_eq_ofBool]
  exact BitVec.ofBool_eq_iff_eq.symm

/-- A timestamp is below `2^W` exactly when `TS[23:W]` is 0, which says nothing from W = 24 up (R74). -/
theorem stampField_lt_iff (w : Word) (k : Nat) :
    (stampField w).toNat < 2 ^ k ↔ (k < 24 → wordBits w k 24 = 0) := by
  by_cases hk : k < 24
  · have hstamp : (stampField w).toNat = w.toNat % 2 ^ 24 := by simp [stampField]
    have hbits : wordBits w k 24 = w.toNat % 2 ^ 24 / 2 ^ k := by
      rw [wordBits, ← Nat.mod_mul_right_div_self, ← pow_add, Nat.add_sub_cancel' hk.le]
    simp only [hstamp, hbits, hk, Nat.div_eq_zero_iff_lt (Nat.two_pow_pos k), forall_const]
  · have hlt : (stampField w).toNat < 2 ^ k :=
      (stampField w).isLt.trans_le (Nat.pow_le_pow_right Nat.two_pos (not_lt.1 hk))
    simp only [hlt, hk, false_imp_iff]

/-! ### The operand bits of each format -/

theorem operandBits_edge_iff {w : Word} {l : Bool} {ts : Stamp} :
    w.extractLsb' 0 28 = operandBits (.edge l ts) ↔
      w.extractLsb' 25 3 = 0#3 ∧ levelField w = l ∧ stampField w = ts :=
  extractLsb'_eq_append_flag_iff (a := 0#3) (b := ts)

theorem operandBits_txTick_some_iff {w : Word} {b : Byte} :
    w.extractLsb' 0 28 = operandBits (.txTick (some b)) ↔
      w.extractLsb' 9 19 = 0#19 ∧ validField w = true ∧ byteField w = b :=
  extractLsb'_eq_append_flag_iff (a := 0#19) (v := true) (b := b)

theorem operandBits_txTick_none_iff {w : Word} :
    w.extractLsb' 0 28 = operandBits (.txTick none) ↔
      w.extractLsb' 9 19 = 0#19 ∧ validField w = false ∧ byteField w = 0#8 :=
  extractLsb'_eq_append_flag_iff (a := 0#19) (v := false) (b := 0#8)

theorem operandBits_readReg_iff {w : Word} {n : Byte} :
    w.extractLsb' 0 28 = operandBits (.readReg n) ↔ w.extractLsb' 8 20 = 0#20 ∧ byteField w = n :=
  extractLsb'_eq_append_iff (a := 0#20) (b := n)

/-- A word is an event's word exactly when it has the event's opcode and operand bits (R71). -/
theorem encode_eq_iff {w : Word} {i : Instr} :
    encode i = w ↔ opField w = opcodeOf i ∧ w.extractLsb' 0 28 = operandBits i := by
  have h := extractLsb'_eq_append_iff (x := w) (lo := 0) (a := opcodeOf i) (b := operandBits i)
  rw [BitVec.extractLsb'_eq_self] at h
  exact eq_comm.trans h

/-! ### What each format accepts -/

theorem decodeZ_eq_ok_iff {w : Word} {i j : Instr} :
    decodeZ w j = .ok i ↔ w.extractLsb' 0 28 = 0#28 ∧ j = i := by
  unfold decodeZ
  split
  · next h => simp only [h, true_and, Except.ok.injEq]
  · next h => simp only [h, false_and, reduceCtorEq]

theorem decodeE_eq_ok_iff {c : Config} {w : Word} {i : Instr} :
    decodeE c w = .ok i ↔
      w.extractLsb' 25 3 = 0#3 ∧ (stampField w).toNat < 2 ^ c.width ∧
        .edge (levelField w) (stampField w) = i := by
  unfold decodeE
  split
  · next h => simp only [h, false_and, reduceCtorEq]
  · next h =>
    split
    · next hts => simp only [not_lt.2 hts, false_and, and_false, reduceCtorEq]
    · next hts => simp only [not_not.1 h, not_le.1 hts, true_and, Except.ok.injEq]

theorem decodeT_eq_ok_iff {w : Word} {i : Instr} :
    decodeT w = .ok i ↔
      w.extractLsb' 9 19 = 0#19 ∧ (validField w = false → byteField w = 0#8) ∧
        .txTick (if validField w then some (byteField w) else none) = i := by
  unfold decodeT
  split
  · next h => simp only [h, false_and, reduceCtorEq]
  · next h =>
    rw [not_not] at h
    split
    · next hv => simp [h, hv]
    · next hv =>
      split
      · next hb => simp [h, hv, hb]
      · next hb => simp [h, hv, hb]

theorem decodeR_eq_ok_iff {w : Word} {i : Instr} :
    decodeR w = .ok i ↔ w.extractLsb' 8 20 = 0#20 ∧ .readReg (byteField w) = i := by
  unfold decodeR
  split
  · next h => simp only [h, true_and, Except.ok.injEq]
  · next h => simp only [h, false_and, reduceCtorEq]


/-! ### The decoder and the encoder agree -/

/-- The decoder of the format that R73 gives the event's opcode. -/
def formatDecoder (c : Config) (w : Word) : Instr → Except Reject Instr
  | .edge _ _ => decodeE c w
  | .txTick _ => decodeT w
  | .readReg _ => decodeR w
  | i => decodeZ w i

theorem decode_of_opField {c : Config} {w : Word} {i : Instr} (h : opField w = opcodeOf i) :
    decode c w = formatDecoder c w i := by
  rw [decode, h]
  cases i <;> rfl

theorem formatDecoder_eq_ok_iff {c : Config} {w : Word} {i : Instr} :
    formatDecoder c w i = .ok i ↔ w.extractLsb' 0 28 = operandBits i ∧ i.wf c = true := by
  cases i with
  | edge l ts =>
    simp only [formatDecoder, decodeE_eq_ok_iff, operandBits_edge_iff, Instr.wf, Instr.edge.injEq,
      decide_eq_true_eq]
    constructor
    · rintro ⟨hz, hts, rfl, rfl⟩
      exact ⟨⟨hz, rfl, rfl⟩, hts⟩
    · rintro ⟨⟨hz, rfl, rfl⟩, hts⟩
      exact ⟨hz, hts, rfl, rfl⟩
  | txTick answer =>
    cases answer with
    | none =>
      cases hv : validField w <;>
        simp [formatDecoder, decodeT_eq_ok_iff, operandBits_txTick_none_iff, Instr.wf, hv]
    | some b =>
      cases hv : validField w <;>
        simp [formatDecoder, decodeT_eq_ok_iff, operandBits_txTick_some_iff, Instr.wf, hv]
  | readReg n =>
    simp only [formatDecoder, decodeR_eq_ok_iff, operandBits_readReg_iff, Instr.wf, Instr.readReg.injEq,
      and_true]
  | _ => exact decodeZ_eq_ok_iff.trans (by simp [operandBits, Instr.wf])

/-- A word decodes only to an event of its own opcode (R73). -/
theorem opField_of_decode {c : Config} {w : Word} {i : Instr} (h : decode c w = .ok i) :
    opField w = opcodeOf i := by
  have hZ : ∀ {j : Instr}, decodeZ w j = .ok i → (opField w).toNat = (opcodeOf j).toNat →
      opField w = opcodeOf i := by
    intro j hj hop
    obtain ⟨-, rfl⟩ := decodeZ_eq_ok_iff.1 hj
    exact BitVec.eq_of_toNat_eq hop
  unfold decode at h
  split at h
  · next hop =>
    obtain ⟨-, -, rfl⟩ := decodeE_eq_ok_iff.1 h
    exact BitVec.eq_of_toNat_eq hop
  · next hop => exact hZ h hop
  · next hop =>
    obtain ⟨-, -, rfl⟩ := decodeT_eq_ok_iff.1 h
    exact BitVec.eq_of_toNat_eq hop
  · next hop => exact hZ h hop
  · next hop => exact hZ h hop
  · next hop => exact hZ h hop
  · next hop => exact hZ h hop
  · next hop =>
    obtain ⟨-, rfl⟩ := decodeR_eq_ok_iff.1 h
    exact BitVec.eq_of_toNat_eq hop
  · next hop => exact hZ h hop
  · cases h

/-- The legal words and the well-formed events are one to one (D39). -/
theorem decode_eq_ok_iff {c : Config} {w : Word} {i : Instr} :
    decode c w = .ok i ↔ encode i = w ∧ i.wf c = true := by
  rw [encode_eq_iff, and_assoc, ← formatDecoder_eq_ok_iff (w := w)]
  constructor
  · intro h
    have hop := opField_of_decode h
    exact ⟨hop, decode_of_opField hop ▸ h⟩
  · rintro ⟨hop, h⟩
    rwa [decode_of_opField hop]

/-- Settles O1: the event meets both conditions under which its word decodes to it. -/
theorem decodeOfEncodeIsTheEvent : Obligations.DecodeOfEncodeIsTheEvent :=
  fun _ _ hwf => decode_eq_ok_iff.2 ⟨rfl, hwf⟩

/-- Settles O2: the other direction of the same correspondence. -/
theorem legalWordIsTheWordOfItsEvent : Obligations.LegalWordIsTheWordOfItsEvent :=
  fun _ _ _ h => decode_eq_ok_iff.1 h

/-- Settles O4: each word is the word of its event, so the events decide it without running the decoder. -/
theorem sampleWordsDecode : Obligations.SampleWordsDecode := by
  refine ⟨?_, ?_, ?_, ?_, ?_, ?_, ?_, ?_, ?_, ?_, ?_⟩ <;> exact decode_eq_ok_iff.2 (by decide)

/-! ### The bytes of a word -/

/-- Four bytes put together are the word they were taken from (R71). -/
theorem decodeBytes_wordBytes (c : Config) (w : Word) (rest : List Byte) :
    decodeBytes c (wordBytes w ++ rest) = (decode c w).map (fun i => (i, rest)) := by
  have hword : w.extractLsb' 24 8 ++ w.extractLsb' 16 8 ++ w.extractLsb' 8 8 ++ w.extractLsb' 0 8 = w := by
    rw [BitVec.extractLsb'_append_extractLsb'_eq_extractLsb' (start₁ := 16) (len₁ := 8) rfl,
      BitVec.extractLsb'_append_extractLsb'_eq_extractLsb' (start₁ := 8) (len₁ := 8) rfl,
      BitVec.extractLsb'_append_extractLsb'_eq_extractLsb' (start₁ := 0) (len₁ := 8) rfl]
    exact BitVec.extractLsb'_eq_self
  simp only [wordBytes, List.cons_append, List.nil_append, decodeBytes, hword]

/-- Settles O5: the four bytes give the event's word back, and O1 gives the event. -/
theorem bytesReadMostSignificantFirst : Obligations.BytesReadMostSignificantFirst := by
  intro c i rest hwf
  rw [encodeBytes, decodeBytes_wordBytes, decodeOfEncodeIsTheEvent c i hwf]
  rfl

/-! ### A step on a word -/

/-- A step at a state with a word waiting, by what the word decodes to (R56, R70). -/
theorem step_of_trace {s : State} {w : Word} {rest : List Word} (h : s.trace = w :: rest) :
    (∀ i, decode s.cfg w = .ok i → step s = exec i { s with trace := rest }) ∧
    (∀ e, decode s.cfg w = .error e → step s = .next (illegalWord { s with trace := rest })) := by
  have hfetch : fetch s = some (w, { s with trace := rest }) := by rw [fetch, h]
  constructor
  · intro i hd
    rw [step, hfetch]
    simp only [hd]
  · intro e hd
    rw [step, hfetch]
    simp only [hd]

/-- Settles O6: the word that waits is the word delivered. -/
theorem stepRunsTheDecodedEvent : Obligations.StepRunsTheDecodedEvent := by
  intro s w rest i htrace hd
  obtain ⟨hok, -⟩ := step_of_trace htrace
  exact hok i hd

/-! ### The illegal words -/

/-- The words that are no event are those of the four ways of R74, opcode by opcode. -/
theorem exists_decode_iff {c : Config} {w : Word} : (∃ i, decode c w = .ok i) ↔ ¬IllegalWord c w := by
  have hop : (opField w).toNat = wordBits w 28 32 := toNat_extractLsb'_eq_wordBits w 28 4
  have hlt : wordBits w 28 32 < 16 := hop ▸ (opField w).isLt
  have hZ : ∀ j, (∃ i, decodeZ w j = .ok i) ↔ wordBits w 0 28 = 0 := by
    simp [decodeZ_eq_ok_iff, extractLsb'_eq_zero_iff]
  rw [decode, hop]
  split
  · next h => simp [IllegalWord, h, decodeE_eq_ok_iff, extractLsb'_eq_zero_iff, stampField_lt_iff]
  · next h => simp [IllegalWord, h, hZ]
  · next h =>
    simp [IllegalWord, h, decodeT_eq_ok_iff, extractLsb'_eq_zero_iff, validField_eq_false_iff, byteField]
  · next h => simp [IllegalWord, h, hZ]
  · next h => simp [IllegalWord, h, hZ]
  · next h => simp [IllegalWord, h, hZ]
  · next h => simp [IllegalWord, h, hZ]
  · next h => simp [IllegalWord, h, decodeR_eq_ok_iff, extractLsb'_eq_zero_iff]
  · next h => simp [IllegalWord, h, hZ]
  · next h1 h2 h3 h4 h5 h6 h7 h8 h15 =>
    simp only [imp_false] at h1 h2 h3 h4 h5 h6 h7 h8 h15
    have hreserved : wordBits w 28 32 = 0 ∨ (9 ≤ wordBits w 28 32 ∧ wordBits w 28 32 ≤ 14) := by omega
    simp [IllegalWord, hreserved]

/-- Settles O3: a word in one of the four ways is no event, so the step takes the decoder's error arm. -/
theorem illegalWordRaisesIllegalEvent : Obligations.IllegalWordRaisesIllegalEvent := by
  intro s w rest htrace
  refine ⟨fun hill => ?_, exists_decode_iff.2⟩
  obtain ⟨-, herror⟩ := step_of_trace htrace
  cases hd : decode s.cfg w with
  | ok i => exact absurd hill (exists_decode_iff.1 ⟨i, hd⟩)
  | error e => exact herror e hd

/-! ### The answer of a tick -/

/-- LoadNext reads its answer only where a Message byte is due (R75, R185). -/
theorem loadNext_answer {s : State} (hmsg : s.txs ≠ .message) (hsync : s.txs = .sync → s.txRep.toNat < 2)
    (a a' : Option Byte) : loadNext a s = loadNext a' s := by
  have hS : ∀ {t : State}, t.txRep.toNat < 2 → loadSync a t = loadSync a' t := by
    intro t ht
    simp only [loadSync, if_pos ht]
  have hP : ∀ t : State, loadPreamble a t = loadPreamble a' t := by
    intro t
    rw [loadPreamble, loadPreamble, hS (t := t.enterPhase .sync) (by simp)]
  cases hp : s.txs with
  | idle => simp only [loadNext, hp, hP]
  | preamble => simp only [loadNext, hp, hP]
  | sync => simp only [loadNext, hp, hS (hsync hp)]
  | message => exact absurd hp hmsg
  | training => simp only [loadNext, hp]
  | done => simp only [loadNext, hp]

/-- Where a byte is due, a tick is no fetch tick exactly when the byte is not a Message byte (R271). -/
theorem isFetchTick_eq_false_iff {s : State} (hf : s.fault = false) (ha : s.txArmed = true)
    (hb : s.txBitsLeft = 0) :
    isFetchTick s = false ↔ s.txs ≠ .message ∧ (s.txs = .sync → s.txRep.toNat < 2) := by
  simp [isFetchTick, hf, ha, hb]

theorem execTxTick_answer {s : State} (h : isFetchTick s = false) (a a' : Option Byte) :
    execTxTick a s = execTxTick a' s := by
  unfold execTxTick
  split
  · rfl
  next hf =>
  split
  · rfl
  next ha =>
  split
  · rfl
  split
  · next hb =>
    obtain ⟨hmsg, hsync⟩ := (isFetchTick_eq_false_iff (by simpa using hf) (by simpa using ha) hb).1 h
    rw [loadNext_answer hmsg hsync a a']
  · rfl

/-- Settles O39: only LoadNext is given the answer, and off a fetch tick it does not read it. -/
theorem answerIsReadOnlyByAFetch : Obligations.AnswerIsReadOnlyByAFetch :=
  ⟨fun a a' _ h => execTxTick_answer h a a', by decide⟩

end Sys2Proof.Machine

/-! ## Edge capture -/

namespace Sys2Proof.Machine

/-! ### The interval -/

/-- Saturation keeps a value up to 255 and never wraps (R8). -/
theorem toNat_sat8 (v : Nat) : (sat8 v).toNat = min 255 v := by
  rw [sat8, BitVec.toNat_ofNat, Nat.mod_eq_of_lt (by omega), min_comm]

/-- The 24-bit difference is the W-bit one, because 2^W divides 2^24 (R101). -/
theorem stampDelta_eq {c : Config} (hw : c.width ≤ 24) {time0 : Stamp} (ht : time0.toNat < 2 ^ c.width)
    (now : Stamp) :
    stampDelta c time0 now = (now.toNat + 2 ^ c.width - time0.toNat) % 2 ^ c.width := by
  have hdvd : 2 ^ c.width ∣ 2 ^ 24 := pow_dvd_pow 2 hw
  obtain ⟨k, hk⟩ : ∃ k, 2 ^ 24 = 2 ^ c.width + 2 ^ c.width * k := by
    obtain ⟨m, hm⟩ := Nat.exists_eq_add_of_le (Nat.le_of_dvd (by decide) hdvd)
    obtain ⟨k, rfl⟩ := (Nat.dvd_add_right dvd_rfl).1 (hm ▸ hdvd)
    exact ⟨k, hm⟩
  rw [stampDelta, BitVec.toNat_sub, Nat.mod_mod_of_dvd _ hdvd, hk,
    show 2 ^ c.width + 2 ^ c.width * k - time0.toNat + now.toNat =
      now.toNat + 2 ^ c.width - time0.toNat + 2 ^ c.width * k by omega,
    Nat.add_mul_mod_self_left]

theorem Config.width_le_of_wf {c : Config} (h : c.wf = true) : c.width ≤ 24 := by
  simp only [Config.wf, Config.widthOk, Bool.and_eq_true, decide_eq_true_eq] at h
  obtain ⟨⟨-, hle⟩, -⟩ := h
  exact hle

/-- Settles O8: the modular difference is that of W bits, the shift is a division, and `sat8` clamps. -/
theorem intervalIsClampedModularDifference : Obligations.IntervalIsClampedModularDifference := by
  intro c time0 now hc ht _
  rw [interval, toNat_sat8, stampDelta_eq (Config.width_le_of_wf hc) ht, Nat.shiftRight_eq_div_pow]

/-! ### The preamble counter -/

theorem RxState.countsPreamble_iff {r : RxState} :
    r.countsPreamble = true ↔ r = .high ∨ r = .low ∨ r = .checkSync1 ∨ r = .waitStop := by
  cases r <;> simp [RxState.countsPreamble]

/-- The count where edges are counted, in numbers (R105). -/
theorem toNat_preambleNext_of_counted {r : RxState} (h : r.countsPreamble = true) (iv : Byte) (cnt : BitVec 7) :
    (preambleNext r iv cnt).toNat =
      if 9 ≤ iv.toNat ∧ iv.toNat ≤ 17 then min (cnt.toNat + 1) 64 else 0 := by
  rw [preambleNext, if_pos h, apply_ite BitVec.toNat, BitVec.toNat_ofNat,
    Nat.mod_eq_of_lt (lt_of_le_of_lt (min_le_right _ _) (by decide))]
  rfl

theorem preambleNext_of_not_counted {r : RxState} (h : r.countsPreamble = false) (iv : Byte) (cnt : BitVec 7) :
    preambleNext r iv cnt = cnt := by
  simp [preambleNext, h]

/-- An edge that nothing ends is gathered (R142, R143). -/
theorem gatherEdge_of_append {l : Bool} {iv : Byte} {now : Stamp} {s u : State}
    (he : gatherEnd l iv s = none) (hu : s.append iv = some u) :
    gatherEdge l iv now s = .next (if isBoundary l iv then u.handoff now else u) := by
  simp [gatherEdge, he, hu]

/-- The state with another preamble counter. -/
def State.setPreambleCnt (s : State) (c : BitVec 7) : State := { s with preambleCnt := c }

@[simp] theorem State.setPreambleCnt_rxs (s : State) (c : BitVec 7) : (s.setPreambleCnt c).rxs = s.rxs := rfl

@[simp] theorem State.setPreambleCnt_preambleCnt (s : State) (c : BitVec 7) :
    (s.setPreambleCnt c).preambleCnt = c := rfl

/-- The gatherer neither reads nor writes the preamble counter. -/
theorem gatherEdge_setPreambleCnt {l : Bool} {iv : Byte} {now : Stamp} {s t : State}
    (h : gatherEdge l iv now s = .next t) (c : BitVec 7) :
    gatherEdge l iv now (s.setPreambleCnt c) = .next (t.setPreambleCnt c) := by
  rcases gatherEdge_next h with ⟨e, he, rfl⟩ | ⟨he, u, hu, rfl⟩
  · exact gatherEdge_of_end (s := s.setPreambleCnt c) he
  · have hu' : (s.setPreambleCnt c).append iv = some (u.setPreambleCnt c) := by
      obtain ⟨hlt, rfl⟩ := State.append_eq_some_iff.1 hu
      exact State.append_eq_some_iff.2 ⟨hlt, rfl⟩
    rw [gatherEdge_of_append (s := s.setPreambleCnt c) he hu']
    split <;> rfl

/-- The state rule neither reads nor writes the preamble counter: it gates nothing (R105). -/
theorem edgeRule_setPreambleCnt {l : Bool} {iv : Byte} {now : Stamp} {s t : State}
    (h : edgeRule l iv now s = .next t) (c : BitVec 7) :
    edgeRule l iv now (s.setPreambleCnt c) = .next (t.setPreambleCnt c) := by
  cases hr : s.rxs <;> simp only [edgeRule, State.setPreambleCnt_rxs, hr] at h ⊢
  case gathering => exact gatherEdge_setPreambleCnt h c
  case waitStop => cases h; cases l <;> rfl
  case frameStart => cases h
  case done => cases h
  case idle | high | low | checkSync1 => cases h; rfl

/-- Setting the counter to the value it has shows that the state rule keeps it. -/
theorem edgeRule_preambleCnt {l : Bool} {iv : Byte} {now : Stamp} {s t : State}
    (h : edgeRule l iv now s = .next t) : t.preambleCnt = s.preambleCnt := by
  have hset : Host.Outcome.next t = .next (t.setPreambleCnt s.preambleCnt) :=
    h.symm.trans (edgeRule_setPreambleCnt h s.preambleCnt)
  injection hset with ht
  rw [ht, State.setPreambleCnt_preambleCnt]

/-- Settles O16: PreambleUpdate alone writes the counter, and the state rule after it does not read it. -/
theorem preambleCounterCountsBitPeriods : Obligations.PreambleCounterCountsBitPeriods := by
  intro l ts s t hf ha h
  have hrule := (execEdge_processed hf ha).symm.trans h
  have hcnt : t.preambleCnt = preambleNext s.rxs (s.intervalAt ts) s.preambleCnt :=
    edgeRule_preambleCnt hrule
  refine ⟨fun hr => ?_, fun hr => ?_, fun c => ⟨preambleNext s.rxs (s.intervalAt ts) c, ?_⟩⟩
  · rw [hcnt, toNat_preambleNext_of_counted (RxState.countsPreamble_iff.2 hr)]
  · rw [hcnt, preambleNext_of_not_counted]
    rcases hr with hr | hr <;> rw [hr] <;> rfl
  · exact (execEdge_processed (s := s.setPreambleCnt c) hf ha).trans (edgeRule_setPreambleCnt hrule _)

/-! ### The re-latch of `time0` -/

theorem RxState.scanning_iff {r : RxState} :
    r.Scanning ↔ r = .idle ∨ r = .high ∨ r = .low ∨ r = .checkSync1 ∨ r = .waitStop := by
  cases r <;> simp [RxState.Scanning]

theorem isBoundary_eq_true_iff {l : Bool} {iv : Byte} : isBoundary l iv = true ↔ l = false ∧ 130 ≤ iv.toNat := by
  simp [isBoundary, byteMin, and_comm]

theorem tooLong_eq_false_iff {iv : Byte} : tooLong iv = false ↔ iv.toNat ≤ 188 := by
  simp [tooLong, byteMax]

/-- The edges with `resync`: those of the scanning states, and the boundaries that the gatherer takes (R103). -/
theorem resync_eq_true_iff {l : Bool} {ts : Stamp} {s : State} :
    resync l ts s = true ↔
      s.fault = false ∧ s.rxArmed = true ∧
        (s.rxs.Scanning ∨
         (s.rxs = .gathering ∧ isBoundary l (s.intervalAt ts) = true ∧
          gatherEnd l (s.intervalAt ts) s = none ∧ (s.count s.active).toNat < edgeCap)) := by
  cases hr : s.rxs <;> simp [resync, hr, RxState.Scanning, and_assoc]

/-- An edge in Gathering stays there exactly where no condition ends the frame (R140). -/
theorem gatherEdge_rxs_iff {l : Bool} {iv : Byte} {now : Stamp} {s t : State} (hg : s.rxs = .gathering)
    (h : gatherEdge l iv now s = .next t) : t.rxs = .gathering ↔ gatherEnd l iv s = none := by
  rcases gatherEdge_next h with ⟨e, he, rfl⟩ | ⟨he, u, hu, rfl⟩
  · simp [he]
  · obtain ⟨-, rfl⟩ := State.append_eq_some_iff.1 hu
    split <;> simp [he, hg]

/-- An edge is gathered only where its entry fits in the buffer (R149). -/
theorem count_lt_of_gatherEdge {l : Bool} {iv : Byte} {now : Stamp} {s t : State}
    (h : gatherEdge l iv now s = .next t) (hnone : gatherEnd l iv s = none) :
    (s.count s.active).toNat < edgeCap := by
  rcases gatherEdge_next h with ⟨e, he, -⟩ | ⟨-, u, hu, -⟩
  · simp [hnone] at he
  · obtain ⟨hlt, -⟩ := State.append_eq_some_iff.1 hu
    exact hlt

/-- The gatherer re-latches at the boundaries it takes (R103, R151). -/
theorem gatherEdge_time0 {l : Bool} {iv : Byte} {now : Stamp} {s t : State}
    (h : gatherEdge l iv now s = .next t) :
    t.time0 = if isBoundary l iv = true ∧ gatherEnd l iv s = none then now else s.time0 := by
  rcases gatherEdge_next h with ⟨e, he, rfl⟩ | ⟨he, u, hu, rfl⟩
  · simp [he]
  · obtain ⟨-, rfl⟩ := State.append_eq_some_iff.1 hu
    split
    · next hbound => simp [he, hbound]
    · next hbound => simp [hbound]

/-- The edges with `resync`, where the step says by its next state what the gatherer did (R103, R104). -/
theorem resync_iff_of_next {l : Bool} {ts : Stamp} {s t : State} (h : execEdge l ts s = .next t) :
    resync l ts s = true ↔
      s.fault = false ∧ s.rxArmed = true ∧
        (s.rxs.Scanning ∨
         (s.rxs = .gathering ∧ l = false ∧ 130 ≤ (s.intervalAt ts).toNat ∧ (s.intervalAt ts).toNat ≤ 188 ∧
          t.rxs = .gathering)) := by
  rw [resync_eq_true_iff]
  refine and_congr_right fun hf => and_congr_right fun ha => or_congr_right (and_congr_right fun hg => ?_)
  rw [execEdge_gathering hf ha hg] at h
  rw [gatherEdge_rxs_iff hg h, isBoundary_eq_true_iff]
  constructor
  · rintro ⟨⟨hl, hmin⟩, hnone, -⟩
    obtain ⟨hlong, -⟩ := gatherEnd_eq_none_iff.1 hnone
    exact ⟨hl, hmin, tooLong_eq_false_iff.1 hlong, hnone⟩
  · rintro ⟨hl, hmin, -, hnone⟩
    exact ⟨⟨hl, hmin⟩, hnone, count_lt_of_gatherEdge h hnone⟩

/-- An edge re-latches `time0` exactly where the detector's output is 1 (R104). -/
theorem execEdge_time0 {l : Bool} {ts : Stamp} {s t : State} (h : execEdge l ts s = .next t) :
    t.time0 = if resync l ts s = true then sampleNow s.cfg ts else s.time0 := by
  rcases execEdge_next h with ⟨hmask, rfl⟩ | ⟨hf, ha, hrule⟩
  · rw [if_neg fun hr => ?_]
    obtain ⟨hf, ha, -⟩ := resync_eq_true_iff.1 hr
    simp [hf, ha] at hmask
  · rcases edgeRule_next hrule with ⟨r, hg, hd, hfs, -, -, -, rfl⟩ | ⟨hw, -, rfl⟩ | ⟨hg, -⟩
    · rw [if_pos (resync_eq_true_iff.2 ⟨hf, ha, .inl ⟨hg, hd, hfs⟩⟩), State.scanTo_time0]
    · rw [State.preambleUpdate_rxs] at hw
      rw [if_pos (resync_eq_true_iff.2 ⟨hf, ha, .inl (RxState.scanning_iff.2 (by simp [hw]))⟩),
        State.startFrame_time0]
    · rw [State.preambleUpdate_rxs] at hg
      rw [execEdge_gathering hf ha hg] at h
      have hsync : resync l ts s = true ↔
          isBoundary l (s.intervalAt ts) = true ∧ gatherEnd l (s.intervalAt ts) s = none := by
        simpa [resync_eq_true_iff, RxState.Scanning, hf, ha, hg] using fun _ => count_lt_of_gatherEdge h
      simp only [gatherEdge_time0 h, hsync]

/-- Settles O17: `resync` names the re-latching steps, and a boundary is taken exactly where the frame goes on. -/
theorem relatchExactlyWhenResync : Obligations.RelatchExactlyWhenResync := by
  intro l ts s t h
  rw [← RxState.scanning_iff]
  exact ⟨resync_iff_of_next h, execEdge_time0 h⟩

end Sys2Proof.Machine

/-! ## The frame/sync detector -/

namespace Sys2Proof.Machine

/-! ### The state rule, state by state -/

theorem edgeRule_idle {l : Bool} {iv : Byte} {now : Stamp} {s : State} (h : s.rxs = .idle) :
    edgeRule l iv now s = .next (edgeIdle l now s) := by
  simp [edgeRule, h]

theorem edgeRule_high {l : Bool} {iv : Byte} {now : Stamp} {s : State} (h : s.rxs = .high) :
    edgeRule l iv now s = .next (edgeHigh l iv now s) := by
  simp [edgeRule, h]

theorem edgeRule_low {l : Bool} {iv : Byte} {now : Stamp} {s : State} (h : s.rxs = .low) :
    edgeRule l iv now s = .next (edgeLow l now s) := by
  simp [edgeRule, h]

theorem edgeRule_checkSync1 {l : Bool} {iv : Byte} {now : Stamp} {s : State} (h : s.rxs = .checkSync1) :
    edgeRule l iv now s = .next (edgeCheckSync1 l iv now s) := by
  simp [edgeRule, h]

theorem edgeRule_waitStop {l : Bool} {iv : Byte} {now : Stamp} {s : State} (h : s.rxs = .waitStop) :
    edgeRule l iv now s = .next (edgeWaitStop l now s) := by
  simp [edgeRule, h]

/-- The detector stops in no scanning state (R129). -/
theorem edgeRule_completes_of_scanning {s : State} (h : s.rxs.Scanning) (l : Bool) (iv : Byte) (now : Stamp) :
    ∃ t, edgeRule l iv now s = .next t := by
  rcases RxState.scanning_iff.1 h with h | h | h | h | h
  · exact ⟨_, edgeRule_idle h⟩
  · exact ⟨_, edgeRule_high h⟩
  · exact ⟨_, edgeRule_low h⟩
  · exact ⟨_, edgeRule_checkSync1 h⟩
  · exact ⟨_, edgeRule_waitStop h⟩

/-! ### No stop is reachable -/

/-- A choice between two results that complete. -/
theorem exists_next_ite {p : Prop} [Decidable p] {x y : Host.Outcome State Fault Refusal}
    (hx : ∃ t, x = .next t) (hy : ∃ t, y = .next t) : ∃ t, (if p then x else y) = .next t := by
  split <;> assumption

theorem State.FieldsLegal.count_le {s : State} (h : s.FieldsLegal) (b : Buf) : (s.count b).toNat ≤ edgeCap := by
  cases b with
  | b0 => exact h.count0
  | b1 => exact h.count1

/-- A full buffer ends the frame as an overflow, so no entry is put outside it (R149, I18). -/
theorem gatherEdge_completes {s : State} (hcount : (s.count s.active).toNat ≤ edgeCap) (l : Bool) (iv : Byte)
    (now : Stamp) : ∃ t, gatherEdge l iv now s = .next t := by
  cases hend : gatherEnd l iv s with
  | some c => exact ⟨_, gatherEdge_of_end hend⟩
  | none =>
    obtain ⟨-, -, -, -, hne⟩ := gatherEnd_eq_none_iff.1 hend
    have happend : s.append iv = some (s.stored iv) :=
      State.append_eq_some_iff.2 ⟨lt_of_le_of_ne hcount hne, rfl⟩
    exact ⟨_, gatherEdge_of_append hend happend⟩

/-- An EDGE stops only in the two cases of R127 and at a count above the capacity. -/
theorem execEdge_completes {s : State} (hdone : s.rxs = .done → s.rxArmed = false) (hstart : s.rxs ≠ .frameStart)
    (hcount : (s.count s.active).toNat ≤ edgeCap) (l : Bool) (ts : Stamp) : ∃ t, execEdge l ts s = .next t := by
  cases hf : s.fault with
  | true => exact ⟨s, by simp [execEdge, hf]⟩
  | false =>
    cases ha : s.rxArmed with
    | false => exact ⟨s, by simp [execEdge, ha]⟩
    | true =>
      by_cases hg : s.rxs = .gathering
      · rw [execEdge_gathering hf ha hg]
        exact gatherEdge_completes hcount l _ _
      · have hscan : s.rxs.Scanning := ⟨hg, fun hd => by simp [hdone hd] at ha, hstart⟩
        rw [execEdge_processed hf ha]
        exact edgeRule_completes_of_scanning (s := s.preambleUpdate _) hscan l _ _

/-- A DECODE reads entries 0..23 only (R61, I18). -/
theorem execDecode_completes {s : State} (hcount : (s.count s.completed).toNat ≤ edgeCap) :
    ∃ t, execDecode s = .next t := by
  have hentries : ∃ es, s.completedEntries = some es := ⟨_, logEntries_eq_some_iff.2 ⟨hcount, rfl⟩⟩
  obtain ⟨es, hes⟩ := hentries
  rw [execDecode, hes]
  exact exists_next_ite ⟨_, rfl⟩ (exists_next_ite ⟨_, rfl⟩ ⟨_, rfl⟩)

theorem driveBit_completes {s : State} (hbits : s.txBitsLeft.toNat ≤ frameLen) : ∃ t, driveBit s = .next t :=
  ⟨_, if_neg (not_lt.2 hbits)⟩

/-- A TX_TICK drives one of the frame's ten bits, or none (R186, R188, I18). -/
theorem execTxTick_completes {s : State} (hbits : s.txBitsLeft.toNat ≤ frameLen) (a : Option Byte) :
    ∃ t, execTxTick a s = .next t := by
  have hload : ∃ t, driveBit { loadNext a s with txBitsLeft := BitVec.ofNat 4 frameLen } = .next t :=
    ⟨_, driveBit_start _⟩
  exact exists_next_ite ⟨_, rfl⟩ (exists_next_ite ⟨_, rfl⟩ (exists_next_ite ⟨_, rfl⟩
    (exists_next_ite (exists_next_ite ⟨_, rfl⟩ hload) (driveBit_completes hbits))))

theorem execReadReg_completes (n : Byte) (s : State) : ∃ t, execReadReg n s = .next t := by
  unfold execReadReg
  split <;> exact ⟨_, rfl⟩

/-- An event stops in no state of legal fields whose Done is disarmed. -/
theorem exec_completes {s : State} (hfields : s.FieldsLegal) (hdone : s.rxs = .done → s.rxArmed = false)
    (i : Instr) : ∃ t, exec i s = .next t := by
  cases i with
  | edge l ts => exact execEdge_completes hdone hfields.notFrameStart (hfields.count_le _) l ts
  | decode => exact execDecode_completes (hfields.count_le _)
  | txTick a => exact execTxTick_completes hfields.txBitsLeft a
  | rxEnable => exact exists_next_ite ⟨_, rfl⟩ (exists_next_ite ⟨_, rfl⟩ ⟨_, rfl⟩)
  | rxDisable => exact exists_next_ite ⟨_, rfl⟩ ⟨_, rfl⟩
  | txEnable => exact exists_next_ite ⟨_, rfl⟩ (exists_next_ite ⟨_, rfl⟩ ⟨_, rfl⟩)
  | txDisable => exact exists_next_ite ⟨_, rfl⟩ ⟨_, rfl⟩
  | readReg n => exact execReadReg_completes n s
  | reset => exact ⟨_, rfl⟩

/-- Settles O57: the invariant excludes the state of each stop, and an illegal word is a next state. -/
theorem stepNeverStops : Obligations.StepNeverStops := by
  intro s h
  rcases fetch_eq s with ⟨-, hfetch⟩ | ⟨w, rest, htrace, -⟩
  · exact ⟨s, by rw [step, hfetch]⟩
  · obtain ⟨hok, herror⟩ := step_of_trace htrace
    cases hd : decode s.cfg w with
    | ok i =>
      rw [hok i hd]
      have hfields : State.FieldsLegal { s with trace := rest } := { h.fields with }
      exact exec_completes hfields h.receive.doneDisarmed i
    | error e => exact ⟨_, herror e hd⟩

/-! ### The scanning transitions -/

/-- Settles O18: of all that the state rule can do, only a transition and a frame start are left. -/
theorem scanningEndsNoFrame : Obligations.ScanningEndsNoFrame := by
  intro l ts s hf ha hr
  have hscan : s.rxs.Scanning := RxState.scanning_iff.2 hr
  obtain ⟨t, ht⟩ := edgeRule_completes_of_scanning (s := s.preambleUpdate (s.intervalAt ts)) hscan l
    (s.intervalAt ts) (sampleNow s.cfg ts)
  refine ⟨t, (execEdge_processed hf ha).trans ht, ?_⟩
  rcases edgeRule_next ht with ⟨r, -, -, -, rg, rd, rf, rfl⟩ | ⟨-, -, rfl⟩ | ⟨hg, -⟩
  · have hto : r = .idle ∨ r = .high ∨ r = .low ∨ r = .checkSync1 ∨ r = .waitStop :=
      RxState.scanning_iff.1 ⟨rg, rd, rf⟩
    exact ⟨hf, rfl, ha, rfl, rfl, .inr ⟨hto, rfl⟩⟩
  · exact ⟨hf, rfl, ha, rfl, rfl, .inl ⟨rfl, rfl⟩⟩
  · obtain ⟨hng, -, -⟩ := hscan
    exact absurd hg hng

/-- A processed EDGE in state `r` is the state rule after the counter's update for `r` (R100, R105). -/
theorem execEdge_processed_in {l : Bool} {ts : Stamp} {s : State} {r : RxState} (hf : s.fault = false)
    (ha : s.rxArmed = true) (hr : s.rxs = r) :
    execEdge l ts s =
      edgeRule l (s.intervalAt ts) (sampleNow s.cfg ts)
        (s.setPreambleCnt (preambleNext r (s.intervalAt ts) s.preambleCnt)) := by
  subst hr
  exact execEdge_processed hf ha

/-- Settles O11: the rule of Idle does not read the interval, and its edges are not counted. -/
theorem edgeInIdle : Obligations.EdgeInIdle := by
  intro l ts s hf ha hr
  have hcnt : preambleNext .idle (s.intervalAt ts) s.preambleCnt = s.preambleCnt :=
    preambleNext_of_not_counted rfl _ _
  exact (execEdge_processed_in hf ha hr).trans (by rw [hcnt]; exact edgeRule_idle hr)

/-- Settles O12: `SYNC0_MIN` is the threshold in the rule of High. -/
theorem edgeInHigh : Obligations.EdgeInHigh := fun _ _ _ hf ha hr =>
  (execEdge_processed_in hf ha hr).trans (edgeRule_high hr)

/-- Settles O13: the rule of Low does not read the interval. -/
theorem edgeInLow : Obligations.EdgeInLow := fun _ _ _ hf ha hr =>
  (execEdge_processed_in hf ha hr).trans (edgeRule_low hr)

/-- Settles O14: `SYNC1_MIN` and `SYNC1_MAX` are the ends of the window in the rule of CheckSync1. -/
theorem edgeInCheckSync1 : Obligations.EdgeInCheckSync1 := fun _ _ _ hf ha hr =>
  (execEdge_processed_in hf ha hr).trans (edgeRule_checkSync1 hr)

/-- Settles O15: a rising edge stays in WaitStop, and a falling one is the frame start. -/
theorem edgeInWaitStop : Obligations.EdgeInWaitStop := by
  intro ts s hf ha hr
  constructor
  · refine ((execEdge_processed_in hf ha hr).trans (edgeRule_waitStop hr)).trans ?_
    rw [hr]
    rfl
  · exact (execEdge_processed_in hf ha hr).trans (edgeRule_waitStop hr)

end Sys2Proof.Machine

/-! ## The byte gatherer -/

namespace Sys2Proof.Machine

/-! ### The classes of an interval, in numbers (R141) -/

theorem tooLong_eq_true_iff {iv : Byte} : tooLong iv = true ↔ 188 < iv.toNat := by
  simp [tooLong, byteMax]

theorem wrongPolarity_eq_true_iff {l : Bool} {iv : Byte} :
    wrongPolarity l iv = true ↔ 130 ≤ iv.toNat ∧ l = true := by
  simp [wrongPolarity, byteMin]

theorem wrongPolarity_eq_false_iff {l : Bool} {iv : Byte} :
    wrongPolarity l iv = false ↔ iv.toNat < 130 ∨ l = false := by
  rw [← Bool.not_eq_true, wrongPolarity_eq_true_iff, not_and_or, not_le, Bool.not_eq_true]

theorem tooLong_eq_false_of_lt {iv : Byte} (h : iv.toNat < 130) : tooLong iv = false :=
  tooLong_eq_false_iff.2 (by omega)

theorem isBoundary_eq_false_of_lt {l : Bool} {iv : Byte} (h : iv.toNat < 130) : isBoundary l iv = false := by
  rw [← Bool.not_eq_true, isBoundary_eq_true_iff]
  exact fun ⟨_, hmin⟩ => absurd h (not_lt.2 hmin)

/-! ### The conditions that end the frame, by priority (R144) -/

section
variable {l : Bool} {iv : Byte} {s : State}

theorem gatherEnd_of_tooLong (hlong : tooLong iv = true) : gatherEnd l iv s = some .lostTooLong :=
  if_pos hlong

theorem gatherEnd_of_wrongPolarity (hlong : tooLong iv = false) (hpol : wrongPolarity l iv = true) :
    gatherEnd l iv s = some .lostPolarity := by
  simp [gatherEnd, hlong, hpol]

theorem gatherEnd_of_endSeen (hlong : tooLong iv = false) (hpol : wrongPolarity l iv = false)
    (hseen : s.endSeen = true) : gatherEnd l iv s = some .endMarker := by
  simp [gatherEnd, hlong, hpol, hseen]

theorem gatherEnd_of_overrun (hlong : tooLong iv = false) (hpol : wrongPolarity l iv = false)
    (hseen : s.endSeen = false) (hbound : isBoundary l iv = true) (hpend : s.decodePending = true) :
    gatherEnd l iv s = some .lostOverrun := by
  simp [gatherEnd, hlong, hpol, hseen, hbound, hpend]

/-- A full buffer is looked at last, where no boundary meets a pending decode (R149). -/
theorem gatherEnd_of_full (hlong : tooLong iv = false) (hpol : wrongPolarity l iv = false)
    (hseen : s.endSeen = false) (hrun : isBoundary l iv = true → s.decodePending = false)
    (hfull : (s.count s.active).toNat = edgeCap) : gatherEnd l iv s = some .lostOverflow := by
  have hover : (isBoundary l iv && s.decodePending) = false := by simpa using hrun
  simp [gatherEnd, hlong, hpol, hseen, hover, hfull]

end

/-! ### The two ways a processed EDGE leaves the gatherer -/

/-- A condition of R140 makes the whole step Terminate (R150). -/
theorem execEdge_of_gatherEnd {l : Bool} {ts : Stamp} {s : State} {c : EndCause} (hf : s.fault = false)
    (ha : s.rxArmed = true) (hg : s.rxs = .gathering) (hend : gatherEnd l (s.intervalAt ts) s = some c) :
    execEdge l ts s = .next (s.terminate c) :=
  (execEdge_gathering hf ha hg).trans (gatherEdge_of_end hend)

/-- Without one the entry is stored, and a boundary hands the buffer over (R142, R143). -/
theorem execEdge_of_gathered {l : Bool} {ts : Stamp} {s : State} (hf : s.fault = false)
    (ha : s.rxArmed = true) (hg : s.rxs = .gathering) (hend : gatherEnd l (s.intervalAt ts) s = none)
    (hlt : (s.count s.active).toNat < edgeCap) :
    execEdge l ts s =
      .next (if isBoundary l (s.intervalAt ts) then
        (s.stored (s.intervalAt ts)).handoff (sampleNow s.cfg ts) else s.stored (s.intervalAt ts)) :=
  (execEdge_gathering hf ha hg).trans (gatherEdge_of_append hend (State.append_eq_some_iff.2 ⟨hlt, rfl⟩))

/-! ### Frame endings -/

/-- Settles O21: the interval's length is the first condition, so nothing else is looked at. -/
theorem tooLongIntervalEndsFrame : Obligations.TooLongIntervalEndsFrame := fun _ _ _ hf ha hg hlong =>
  execEdge_of_gatherEnd hf ha hg (gatherEnd_of_tooLong (tooLong_eq_true_iff.2 hlong))

/-- Settles O22: the polarity is the second condition, after the interval's length. -/
theorem wrongPolarityEndsFrame : Obligations.WrongPolarityEndsFrame := fun _ _ hf ha hg hmin hmax =>
  execEdge_of_gatherEnd hf ha hg
    (gatherEnd_of_wrongPolarity (tooLong_eq_false_iff.2 hmax) (wrongPolarity_eq_true_iff.2 ⟨hmin, rfl⟩))

/-- Settles O23: the guard comes after the two losses of sync and before everything about the buffer. -/
theorem endMarkerGuardEndsFrame : Obligations.EndMarkerGuardEndsFrame := fun _ _ _ hf ha hg hseen hmax hpol =>
  execEdge_of_gatherEnd hf ha hg
    (gatherEnd_of_endSeen (tooLong_eq_false_iff.2 hmax) (wrongPolarity_eq_false_iff.2 hpol) hseen)

/-- Settles O24: the pending decode is looked at before the buffer's count. -/
theorem boundaryDuringPendingDecodeOverruns : Obligations.BoundaryDuringPendingDecodeOverruns :=
  fun _ _ hf ha hg hseen hpend hmin hmax =>
    execEdge_of_gatherEnd hf ha hg
      (gatherEnd_of_overrun (tooLong_eq_false_iff.2 hmax) (wrongPolarity_eq_false_iff.2 (.inr rfl)) hseen
        (isBoundary_eq_true_iff.2 ⟨rfl, hmin⟩) hpend)

/-- Settles O25: an ordinary edge and a boundary without a pending decode both reach the check of the count. -/
theorem twentyFifthEntryOverflows : Obligations.TwentyFifthEntryOverflows := by
  intro l ts s hf ha hg hseen hcount hiv
  have hfull : (s.count s.active).toNat = edgeCap := by rw [hcount]; rfl
  refine execEdge_of_gatherEnd hf ha hg ?_
  rcases hiv with hord | ⟨hmax, hl, hpend⟩
  · exact gatherEnd_of_full (tooLong_eq_false_of_lt hord) (wrongPolarity_eq_false_iff.2 (.inl hord)) hseen
      (by simp [isBoundary_eq_false_of_lt hord]) hfull
  · exact gatherEnd_of_full (tooLong_eq_false_iff.2 hmax) (wrongPolarity_eq_false_iff.2 (.inr hl)) hseen
      (fun _ => hpend) hfull

/-! ### Append and hand-off -/

/-- The log after `Append(iv)`: the entry at the active buffer's count, and the others as they were (R149). -/
theorem logRead_stored {s : State} (hlt : (s.count s.active).toNat < edgeCap) (iv : Byte) (b : Buf) {i : Nat}
    (hi : i < edgeCap) :
    logRead (s.stored iv).log b i =
      if b = s.active ∧ i = (s.count s.active).toNat then some iv else logRead s.log b i :=
  logRead_logWrite (logWrite_eq_some_iff.2 ⟨hlt, rfl⟩) b hi

/-- `Append` as an update of the fields it writes: the active buffer's count and the log (R149). -/
theorem State.stored_eq (s : State) (iv : Byte) :
    s.stored iv =
      { s with
        count0 := if s.active = .b0 then s.count0 + 1 else s.count0
        count1 := if s.active = .b1 then s.count1 + 1 else s.count1
        log := (s.stored iv).log } := by
  cases hb : s.active <;> simp [State.stored, State.setCount, State.count, hb]

/-- `Append` and `Handoff` as an update of the fields they write: the other buffer becomes the active one,
and it is empty (R151). -/
theorem State.stored_handoff_eq (s : State) (iv : Byte) (now : Stamp) :
    (s.stored iv).handoff now =
      { s with
        count0 := if s.active = .b0 then s.count0 + 1 else 0
        count1 := if s.active = .b1 then s.count1 + 1 else 0
        active := if s.active = .b0 then .b1 else .b0
        decodePending := true
        time0 := now
        log := (s.stored iv).log } := by
  rw [State.stored_eq]
  cases s.active <;> simp [State.handoff, State.setCount, Buf.flip]

/-- Settles O26: no condition ends the frame, and an interval below `BYTE_MIN` is no boundary. -/
theorem ordinaryEdgeIsAppended : Obligations.OrdinaryEdgeIsAppended := by
  intro l ts s hf ha hg hseen hlt hord
  have hbound : isBoundary l (s.intervalAt ts) = false := isBoundary_eq_false_of_lt hord
  have hend : gatherEnd l (s.intervalAt ts) s = none :=
    gatherEnd_eq_none_iff.2 ⟨tooLong_eq_false_of_lt hord, wrongPolarity_eq_false_iff.2 (.inl hord), hseen,
      by simp [hbound], hlt.ne⟩
  refine ⟨(s.stored (s.intervalAt ts)).log, ?_, fun b i hi => logRead_stored hlt _ b hi⟩
  refine (execEdge_of_gathered hf ha hg hend hlt).trans ?_
  rw [hbound]
  exact congrArg Host.Outcome.next (s.stored_eq _)

/-- Settles O27: the boundary's entry is stored before the hand-off, so it ends the completed buffer. -/
theorem boundaryHandsOverTheBuffer : Obligations.BoundaryHandsOverTheBuffer := by
  intro ts s hf ha hg hseen hpend hlt hmin hmax
  have hbound : isBoundary false (s.intervalAt ts) = true := isBoundary_eq_true_iff.2 ⟨rfl, hmin⟩
  have hend : gatherEnd false (s.intervalAt ts) s = none :=
    gatherEnd_eq_none_iff.2 ⟨tooLong_eq_false_iff.2 hmax, wrongPolarity_eq_false_iff.2 (.inr rfl), hseen,
      fun _ => hpend, hlt.ne⟩
  refine ⟨(s.stored (s.intervalAt ts)).log, ?_, fun b i hi => logRead_stored hlt _ b hi⟩
  refine (execEdge_of_gathered hf ha hg hend hlt).trans ?_
  rw [hbound]
  exact congrArg Host.Outcome.next (s.stored_handoff_eq _ _)

end Sys2Proof.Machine

/-! ## The decoder -/

namespace Sys2Proof.Machine

/-! ### The completed buffer while the other one is written -/

theorem State.completed_ne_active (s : State) : s.completed ≠ s.active := Buf.flip_ne s.active

/-- The count of the completed buffer is not the one that the gatherer writes (R29). -/
theorem State.count_completed_setCount_active (s : State) (v : BitVec 5) :
    (s.setCount s.active v).count s.completed = s.count s.completed := by
  rw [State.count_setCount, if_neg s.completed_ne_active]

/-- `Append` writes a cell of the active buffer, so the entries of the completed one stay (R149, R53). -/
theorem State.stored_completedEntries {s : State} (hlt : (s.count s.active).toNat < edgeCap) (iv : Byte) :
    (s.stored iv).completedEntries = s.completedEntries := by
  have hcount : (s.stored iv).count s.completed = s.count s.completed := s.count_completed_setCount_active _
  change logEntries (s.stored iv).log s.completed ((s.stored iv).count s.completed).toNat = _
  rw [hcount, State.completedEntries]
  by_cases hn : (s.count s.completed).toNat ≤ edgeCap
  · refine logEntries_congr fun i hi => ?_
    have hother : logAddr s.completed i ≠ logAddr s.active (s.count s.active).toNat := fun haddr => by
      obtain ⟨hbuf, -⟩ := (logAddr_inj (hi.trans_le hn) hlt).1 haddr
      exact s.completed_ne_active hbuf
    exact (Memory.readCell_writeCell ..).trans (if_neg hother)
  · simp only [logEntries, if_neg hn]

/-! ### Edges before the DECODE -/

/-- What every event of a list keeps, the run keeps (R56). -/
theorem runEvents_keeps {P : State → Prop} {is : List Instr}
    (hexec : ∀ i ∈ is, ∀ {s t : State}, P s → exec i s = .next t → P t) {s t : State} (hs : P s)
    (h : runEvents is s = .next t) : P t := by
  induction is generalizing s with
  | nil => cases h; exact hs
  | cons i is ih =>
    rw [runEvents] at h
    split at h
    · next u hu => exact ih (fun j hj => hexec j (List.mem_cons_of_mem i hj)) (hexec i List.mem_cons_self hs hu) h
    · cases h
    · cases h

/-- DECODER is requested, with selector `b`, and its buffer has count `n` and entries `es`. -/
structure State.Handed (b : Buf) (n : BitVec 5) (es : Option (List Byte)) (s : State) : Prop where
  pending : s.decodePending = true
  active : s.active = b
  count : s.count s.completed = n
  entries : s.completedEntries = es

/-- The frame has ended and has taken the request with it (R150). No edge makes a new request: the gatherer
is disarmed. -/
def State.RequestDropped (s : State) : Prop := s.rxArmed = false ∧ s.decodePending = false

section
variable {l : Bool} {ts : Stamp} {s t : State}

theorem Effect.keeps_requestDropped (h : s.RequestDropped) (he : Effect (.edge l ts) s t) :
    t.RequestDropped := by
  cases he with
  | terminate => exact ⟨rfl, rfl⟩
  | boundary harmed =>
    obtain ⟨hdisarmed, -⟩ := h
    simp [hdisarmed] at harmed
  | _ => exact h

/-- A requested decode lives on with its buffer, or the frame end drops it: an edge writes the active buffer
alone, and no boundary is handed over while a request stands (R148). -/
theorem Effect.keeps_handed {b : Buf} {n : BitVec 5} {es : Option (List Byte)} (h : s.Handed b n es)
    (he : Effect (.edge l ts) s t) : t.Handed b n es ∨ t.RequestDropped := by
  cases he with
  | startFrame =>
    have hcount := s.count_completed_setCount_active 0
    refine .inl { h with count := hcount.trans h.count, entries := Eq.trans ?_ h.entries }
    exact congrArg (fun k : BitVec 5 => logEntries s.log s.completed k.toNat) hcount
  | terminate => exact .inr ⟨rfl, rfl⟩
  | append _ _ _ _ hlt =>
    exact .inl { h with
      count := (s.count_completed_setCount_active _).trans h.count
      entries := (State.stored_completedEntries hlt _).trans h.entries }
  | boundary _ _ hend hbound =>
    obtain ⟨-, -, -, hrun, -⟩ := gatherEnd_eq_none_iff.1 hend
    have hnone := hrun hbound
    simp [h.pending] at hnone
  | _ => exact .inl { h with }

end

/-- Along a run of edges the request stands with its buffer as it was handed over, or it has been dropped. -/
theorem runEvents_edges_keep_handed {b : Buf} {n : BitVec 5} {entries : Option (List Byte)}
    {es : List (Bool × Stamp)} {s t : State} (h : s.Handed b n entries)
    (hrun : runEvents (es.map fun e => Instr.edge e.1 e.2) s = .next t) :
    t.Handed b n entries ∨ t.RequestDropped := by
  refine runEvents_keeps (P := fun u => u.Handed b n entries ∨ u.RequestDropped) ?_ (.inl h) hrun
  intro i hi u v hu hexec
  obtain ⟨e, -, rfl⟩ := List.mem_map.1 hi
  rcases hu with hhanded | hdropped
  · exact (effect_of_exec hexec).keeps_handed hhanded
  · exact .inr ((effect_of_exec hexec).keeps_requestDropped hdropped)

/-- Settles O28: a request that still stands has not been dropped, so its buffer is the one handed over. -/
theorem preemptedDecoderFindsItsBuffer : Obligations.PreemptedDecoderFindsItsBuffer := by
  intro es s t hpend hrun hstands
  have hhanded : s.Handed s.active (s.count s.completed) s.completedEntries := ⟨hpend, rfl, rfl, rfl⟩
  rcases runEvents_edges_keep_handed hhanded hrun with ⟨-, hactive, hcount, hentries⟩ | ⟨-, hdropped⟩
  · exact ⟨hactive, hcount, hentries⟩
  · simp [hdropped] at hstands

/-! ### The DECODE -/

/-- A requested DECODE commits the byte of the entries it reads (R160). -/
theorem execDecode_of_entries {s : State} {es : List Byte} (hf : s.fault = false)
    (hpend : s.decodePending = true) (hes : s.completedEntries = some es) :
    execDecode s = .next (s.commit (decodeBuffer s.cfg es)) := by
  simp [execDecode, hf, hpend, hes]

/-- Settles O29: a count within the capacity gives DECODER its entries, and the next state is Commit's. -/
theorem decodeCommitsTheByte : Obligations.DecodeCommitsTheByte := by
  intro s hf hpend hcount
  have hentries : s.completedEntries =
      some ((List.range (s.count s.completed).toNat).map (s.entry s.completed)) :=
    logEntries_eq_some_iff.2 ⟨hcount, rfl⟩
  exact execDecode_of_entries hf hpend hentries

end Sys2Proof.Machine

/-! ## The bit order on the wire -/

namespace Sys2Proof.Machine

/-! ### DataBit and Shift in each bit order -/

section
variable {c : Config}

theorem dataBit_lsbFirst (h : c.bitOrder = .lsbFirst) (x : Byte) (j : Nat) : dataBit c x j = x.getLsbD j := by
  simp [dataBit, h]

theorem dataBit_msbFirst (h : c.bitOrder = .msbFirst) (x : Byte) (j : Nat) :
    dataBit c x j = x.getLsbD (7 - j) := by
  simp [dataBit, h]

theorem shiftIn_lsbFirst (h : c.bitOrder = .lsbFirst) (out : Byte) (bit : Bool) :
    shiftIn c out bit = (out >>> 1) ||| (BitVec.ofBool bit ++ 0#7) := by
  simp [shiftIn, h]

theorem shiftIn_msbFirst (h : c.bitOrder = .msbFirst) (out : Byte) (bit : Bool) :
    shiftIn c out bit = (out <<< 1) ||| (0#7 ++ BitVec.ofBool bit) := by
  simp [shiftIn, h]

end

/-! ### The byte shifted in so far -/

/-- The decoder's output once the first `n` data bits of `x` have been shifted in: the bits still to come are
missing at the end where Shift puts them (R166). -/
def shiftedIn (c : Config) (x : Byte) (n : Nat) : Byte :=
  match c.bitOrder with
  | .lsbFirst => x <<< (8 - n)
  | .msbFirst => x >>> (8 - n)

theorem shiftedIn_lsbFirst {c : Config} (h : c.bitOrder = .lsbFirst) (x : Byte) (n : Nat) :
    shiftedIn c x n = x <<< (8 - n) := by
  simp [shiftedIn, h]

theorem shiftedIn_msbFirst {c : Config} (h : c.bitOrder = .msbFirst) (x : Byte) (n : Nat) :
    shiftedIn c x n = x >>> (8 - n) := by
  simp [shiftedIn, h]

theorem shiftedIn_zero (c : Config) (x : Byte) : shiftedIn c x 0 = 0 := by
  cases ho : c.bitOrder with
  | lsbFirst => exact (shiftedIn_lsbFirst ho x 0).trans (BitVec.shiftLeft_eq_zero le_rfl)
  | msbFirst => exact (shiftedIn_msbFirst ho x 0).trans (BitVec.ushiftRight_eq_zero le_rfl)

theorem shiftedIn_eight (c : Config) (x : Byte) : shiftedIn c x 8 = x := by
  cases ho : c.bitOrder with
  | lsbFirst => simp [shiftedIn_lsbFirst ho]
  | msbFirst => simp [shiftedIn_msbFirst ho]

/-- A bit put above seven zeros is bit 7. -/
theorem getLsbD_topBit (bit : Bool) (i : Nat) :
    (BitVec.ofBool bit ++ 0#7 : Byte).getLsbD i = (decide (i = 7) && bit) := by
  refine (BitVec.getLsbD_append (x := BitVec.ofBool bit) (y := 0#7)).trans ?_
  simp only [BitVec.getLsbD_ofBool, BitVec.getLsbD_zero]
  grind

/-- A bit put below seven zeros is bit 0. -/
theorem getLsbD_bottomBit (bit : Bool) (i : Nat) :
    (0#7 ++ BitVec.ofBool bit : Byte).getLsbD i = (decide (i = 0) && bit) := by
  refine (BitVec.getLsbD_append (x := 0#7) (y := BitVec.ofBool bit)).trans ?_
  simp only [BitVec.getLsbD_ofBool, BitVec.getLsbD_zero]
  grind

/-- From the top, the bits of `x` below bit `n` and then bit `n` are the bits of `x` below bit `n + 1`. -/
theorem shiftLeft_snoc (x : Byte) {n : Nat} (h : n < 8) :
    (x <<< (8 - n)) >>> 1 ||| (BitVec.ofBool (x.getLsbD n) ++ 0#7) = x <<< (8 - (n + 1)) := by
  refine BitVec.eq_of_getLsbD_eq fun i hi => ?_
  rw [BitVec.getLsbD_or, getLsbD_topBit, BitVec.getLsbD_ushiftRight, BitVec.getLsbD_shiftLeft,
    BitVec.getLsbD_shiftLeft]
  by_cases htop : i = 7
  · have hlast : 7 - (7 - n) = n := by omega
    simp [htop, hlast]
  · have hshift : 1 + i - (8 - n) = i - (8 - (n + 1)) := by omega
    rw [hshift]
    grind

/-- From the bottom, the bits of `x` above bit `7 - n` and then that bit are the bits from it on. -/
theorem ushiftRight_snoc (x : Byte) {n : Nat} (h : n < 8) :
    (x >>> (8 - n)) <<< 1 ||| (0#7 ++ BitVec.ofBool (x.getLsbD (7 - n))) = x >>> (8 - (n + 1)) := by
  refine BitVec.eq_of_getLsbD_eq fun i hi => ?_
  rw [BitVec.getLsbD_or, getLsbD_bottomBit, BitVec.getLsbD_shiftLeft, BitVec.getLsbD_ushiftRight,
    BitVec.getLsbD_ushiftRight]
  cases i with
  | zero => simp
  | succ i =>
    have hshift : 8 - n + i = 7 - n + (i + 1) := by omega
    simp [hshift, hi]

/-- Shift puts the bit that DataBit sends next where it is missing (R166, R187). -/
theorem shiftIn_dataBit (c : Config) (x : Byte) {n : Nat} (h : n < 8) :
    shiftIn c (shiftedIn c x n) (dataBit c x n) = shiftedIn c x (n + 1) := by
  cases ho : c.bitOrder with
  | lsbFirst =>
    rw [shiftIn_lsbFirst ho, shiftedIn_lsbFirst ho, dataBit_lsbFirst ho, shiftedIn_lsbFirst ho]
    exact shiftLeft_snoc x h
  | msbFirst =>
    rw [shiftIn_msbFirst ho, shiftedIn_msbFirst ho, dataBit_msbFirst ho, shiftedIn_msbFirst ho]
    exact ushiftRight_snoc x h

theorem foldl_shiftIn_dataBit (c : Config) (x : Byte) {n : Nat} (h : n ≤ 8) :
    (List.range n).foldl (fun out j => shiftIn c out (dataBit c x j)) 0 = shiftedIn c x n := by
  induction n with
  | zero => exact (shiftedIn_zero c x).symm
  | succ n ih =>
    rw [List.range_succ, List.foldl_append, ih (Nat.le_of_succ_le h)]
    exact shiftIn_dataBit c x h

/-- Settles O32: after eight bits none is missing. -/
theorem sentBitsShiftIntoTheByte : Obligations.SentBitsShiftIntoTheByte := fun c x =>
  (foldl_shiftIn_dataBit c x le_rfl).trans (shiftedIn_eight c x)

end Sys2Proof.Machine

/-! ## Transmit -/

namespace Sys2Proof.Machine

/-! ### Masked events -/

theorem execEdge_masked {s : State} (h : s.rxArmed = false) (l : Bool) (ts : Stamp) :
    execEdge l ts s = .next s := by
  simp [execEdge, h]

theorem execDecode_unrequested {s : State} (h : s.decodePending = false) : execDecode s = .next s := by
  simp [execDecode, h]

theorem execTxTick_masked {s : State} (h : s.txArmed = false) (a : Option Byte) : execTxTick a s = .next s := by
  simp [execTxTick, h]

/-- Settles O10: each of the three events tests its own mask, faulted or not. -/
theorem maskedEventsChangeNothing : Obligations.MaskedEventsChangeNothing :=
  ⟨fun l ts _ h => execEdge_masked h l ts, fun _ h => execDecode_unrequested h, fun a _ h => execTxTick_masked h a⟩

/-! ### The commands -/

/-- The first fault is recorded with its code, and nothing else changes (R236). -/
theorem State.raiseFault_of_unfaulted {s : State} (hf : s.fault = false) (k : FaultCode) :
    s.raiseFault k = { s with fault := true, faultCode := k } := by
  simp [State.raiseFault, hf]

theorem execTxEnable_faulted {s : State} (hf : s.fault = true) : execTxEnable s = .next s := by
  simp [execTxEnable, hf]

theorem execTxEnable_exclusion {s : State} (hf : s.fault = false) (hr : s.rxArmed = true) :
    execTxEnable s = .next (s.raiseFault .exclusion) := by
  simp [execTxEnable, hf, hr]

theorem execTxEnable_arms {s : State} (hf : s.fault = false) (hr : s.rxArmed = false) :
    execTxEnable s = .next s.armTransmit := by
  simp [execTxEnable, hf, hr]

/-- Settles O34: one equation of TX_ENABLE for each clause. -/
theorem txEnableArmsOrRaisesExclusion : Obligations.TxEnableArmsOrRaisesExclusion := by
  intro s
  refine ⟨fun hf hr => execTxEnable_arms hf hr, fun hf hr => ?_, fun hf => execTxEnable_faulted hf⟩
  rw [← State.raiseFault_of_unfaulted hf]
  exact execTxEnable_exclusion hf hr

theorem execTxDisable_faulted {s : State} (hf : s.fault = true) : execTxDisable s = .next s := by
  simp [execTxDisable, hf]

theorem execTxDisable_disarms {s : State} (hf : s.fault = false) :
    execTxDisable s = .next { s with txArmed := false, txPin := true } := by
  simp [execTxDisable, hf]

/-- Settles O35: TX_DISABLE writes two fields, and only while no fault is recorded. -/
theorem txDisableStopsAtOnce : Obligations.TxDisableStopsAtOnce := fun _ =>
  ⟨execTxDisable_disarms, execTxDisable_faulted⟩

/-! ### What a tick does with the line -/

section
variable {a : Option Byte} {s t : State}

theorem execTxTick_done (hf : s.fault = false) (ha : s.txArmed = true) (hd : s.txs = .done) :
    execTxTick a s = .next { s with txPin := true } := by
  simp [execTxTick, hf, ha, hd]

/-- In the middle of a frame LoadNext is not run. -/
theorem execTxTick_midFrame (hf : s.fault = false) (ha : s.txArmed = true) (hd : s.txs ≠ .done)
    (hb : s.txBitsLeft ≠ 0) : execTxTick a s = driveBit s := by
  rw [execTxTick, if_neg (by simp [hf]), if_neg (by simp [ha]), if_neg hd, if_neg hb]

/-- Where LoadNext has a byte, its start bit is driven (R182, R186). -/
theorem execTxTick_of_loaded (hf : s.fault = false) (ha : s.txArmed = true) (hb : s.txBitsLeft = 0)
    (hd : s.txs ≠ .done) (hload : loadNext a s = t) (ht : t.txs ≠ .done) :
    execTxTick a s = .next { t with txBitsLeft := 9, txPin := false } := by
  subst hload
  rw [← driveBit_start]
  simp [execTxTick, hf, ha, hd, hb, ht]

/-- Where LoadNext has no byte, the transmission finishes (R182, R188). -/
theorem execTxTick_of_exhausted (hf : s.fault = false) (ha : s.txArmed = true) (hb : s.txBitsLeft = 0)
    (hd : s.txs ≠ .done) (hload : loadNext a s = t) (ht : t.txs = .done) :
    execTxTick a s = .next t.finish := by
  subst hload
  simp [execTxTick, hf, ha, hd, hb, ht]

end

/-- Settles O38: Done is tested before the bits left, so LoadNext and Finish are not run again. -/
theorem tickInDoneKeepsTheLineIdle : Obligations.TickInDoneKeepsTheLineIdle := fun _ _ hf ha hd =>
  execTxTick_done hf ha hd

/-! ### One bit of a frame -/

theorem driveBit_of_le {s : State} (h : s.txBitsLeft.toNat ≤ 10) :
    driveBit s = .next
      { s with
        txPin := frameBit s.cfg s.txCur (10 - s.txBitsLeft.toNat)
        txBitsLeft := s.txBitsLeft - 1 } :=
  if_neg (not_lt.2 h)

/-- The frame's bits by the number of bits left: the start bit at 10, the stop bit at 1 (R186). -/
theorem frameBit_of_bitsLeft (c : Config) (x : Byte) {n : Nat} (hpos : 1 ≤ n) (hle : n ≤ 10) :
    frameBit c x (10 - n) = if n = 10 then false else if n = 1 then true else dataBit c x (9 - n) := by
  have hstart : 10 - n = 0 ↔ n = 10 := by omega
  have hstop : 10 - n = 9 ↔ n = 1 := by omega
  have hdata : 10 - n - 1 = 9 - n := by omega
  simp only [frameBit, hstart, hstop, hdata]

/-- Settles O36: bit `10 - n` of a frame is data bit `9 - n`, which each bit order reads at its own index. -/
theorem tickDrivesOneBit : Obligations.TickDrivesOneBit := by
  intro a s hf ha hd hpos hle
  have hb : s.txBitsLeft ≠ 0 := by
    intro h
    simp [h] at hpos
  refine (execTxTick_midFrame hf ha hd hb).trans ((driveBit_of_le hle).trans ?_)
  rw [frameBit_of_bitsLeft s.cfg s.txCur hpos hle]
  by_cases hstart : s.txBitsLeft.toNat = 10
  · simp only [if_pos hstart]
  · simp only [if_neg hstart]
    cases ho : s.cfg.bitOrder with
    | lsbFirst => rw [dataBit_lsbFirst ho]
    | msbFirst =>
      have hindex : 7 - (9 - s.txBitsLeft.toNat) = s.txBitsLeft.toNat - 2 := by omega
      rw [dataBit_msbFirst ho, hindex]

/-! ### What LoadNext loads (R185) -/

section
variable {a : Option Byte} {s : State}

theorem loadTraining_of_lt (h : s.txRep.toNat < s.cfg.trailerCount.toNat) :
    loadTraining s = s.loadCounted trainingByte :=
  if_pos h

theorem loadTraining_of_le (h : s.cfg.trailerCount.toNat ≤ s.txRep.toNat) :
    loadTraining s = { s with txs := .done } :=
  if_neg (not_lt.2 h)

theorem loadSync_of_lt (h : s.txRep.toNat < 2) :
    loadSync a s = s.loadCounted (if s.txRep = 0 then syncByte0 else syncByte1) :=
  if_pos h

theorem loadSync_of_le (h : 2 ≤ s.txRep.toNat) : loadSync a s = loadMessage a (s.enterPhase .message) :=
  if_neg (not_lt.2 h)

theorem loadPreamble_of_lt (h : s.txRep.toNat < s.cfg.preambleCount.toNat) :
    loadPreamble a s = s.loadCounted trainingByte :=
  if_pos h

theorem loadPreamble_of_le (h : s.cfg.preambleCount.toNat ≤ s.txRep.toNat) :
    loadPreamble a s = loadSync a (s.enterPhase .sync) :=
  if_neg (not_lt.2 h)

theorem loadNext_idle (h : s.txs = .idle) : loadNext a s = loadPreamble a (s.enterPhase .preamble) := by
  simp [loadNext, h]

theorem loadNext_preamble (h : s.txs = .preamble) : loadNext a s = loadPreamble a s := by
  simp [loadNext, h]

theorem loadNext_sync (h : s.txs = .sync) : loadNext a s = loadSync a s := by
  simp [loadNext, h]

theorem loadNext_message (h : s.txs = .message) : loadNext a s = loadMessage a s := by
  simp [loadNext, h]

theorem loadNext_training (h : s.txs = .training) : loadNext a s = loadTraining s := by
  simp [loadNext, h]

end

/-! ### Where one phase falls through to the next -/

/-- No preamble byte is left, so the first sync byte is due. -/
def State.SyncDue (s : State) : Prop :=
  s.txs = .idle ∧ s.cfg.preambleCount = 0 ∨ s.txs = .preamble ∧ s.cfg.preambleCount.toNat ≤ s.txRep.toNat

/-- Both sync bytes are loaded, so what is sent next is the answer's to say. -/
def State.AnswerDue (s : State) : Prop := s.txs = .sync ∧ 2 ≤ s.txRep.toNat ∨ s.txs = .message

section
variable {a : Option Byte} {s : State}

theorem State.SyncDue.ne_done (h : s.SyncDue) : s.txs ≠ .done := by
  rcases h with ⟨hp, -⟩ | ⟨hp, -⟩ <;> simp [hp]

theorem State.AnswerDue.ne_done (h : s.AnswerDue) : s.txs ≠ .done := by
  rcases h with ⟨hp, -⟩ | hp <;> simp [hp]

theorem loadNext_of_syncDue (h : s.SyncDue) : loadNext a s = (s.enterPhase .sync).loadCounted syncByte0 := by
  have hsync : loadSync a (s.enterPhase .sync) = (s.enterPhase .sync).loadCounted syncByte0 :=
    loadSync_of_lt (by simp)
  rcases h with ⟨hp, hcount⟩ | ⟨hp, hle⟩
  · rw [loadNext_idle hp, loadPreamble_of_le (by simp [hcount])]
    exact hsync
  · rw [loadNext_preamble hp, loadPreamble_of_le hle, hsync]

theorem loadNext_of_answerDue_some {x : Byte} (h : s.AnswerDue) :
    loadNext (some x) s = { s with txs := .message, txCur := x, txRep := if s.txs = .sync then 0 else s.txRep } := by
  rcases h with ⟨hp, hle⟩ | hp
  · rw [loadNext_sync hp, loadSync_of_le hle, if_pos hp]
    rfl
  · rw [loadNext_message hp, if_neg (by simp [hp]), ← hp]
    rfl

theorem loadNext_of_answerDue_none (h : s.AnswerDue) : loadNext none s = loadTraining (s.enterPhase .training) := by
  rcases h with ⟨hp, hle⟩ | hp
  · rw [loadNext_sync hp, loadSync_of_le hle]
    rfl
  · rw [loadNext_message hp]
    rfl

end

/-- Settles O37: each clause is what LoadNext loads in its phase, with the start bit driven, or Finish. -/
theorem tickLoadsTheNextByte : Obligations.TickLoadsTheNextByte := by
  intro a s hf ha hb
  refine ⟨fun hp hlt => ?idle, fun hp hlt => ?preamble, fun hdue => ?syncEntry, fun hp hlt => ?sync,
    fun x hx hdue => ?message, fun hx hdue hlt => ?trainingEntry, fun hp hlt => ?training,
    fun hx hdue hzero => ?noTrailer, fun hp hle => ?trailerSent⟩
  case idle =>
    exact execTxTick_of_loaded hf ha hb (by simp [hp]) ((loadNext_idle hp).trans (loadPreamble_of_lt hlt)) (by simp)
  case preamble =>
    exact execTxTick_of_loaded hf ha hb (by simp [hp]) ((loadNext_preamble hp).trans (loadPreamble_of_lt hlt))
      (by simp [hp])
  case syncEntry =>
    exact execTxTick_of_loaded hf ha hb (State.SyncDue.ne_done hdue) (loadNext_of_syncDue hdue) (by simp)
  case sync =>
    exact execTxTick_of_loaded hf ha hb (by simp [hp]) ((loadNext_sync hp).trans (loadSync_of_lt hlt))
      (by simp [hp])
  case message =>
    subst hx
    exact execTxTick_of_loaded hf ha hb (State.AnswerDue.ne_done hdue) (loadNext_of_answerDue_some hdue) (by simp)
  case trainingEntry =>
    subst hx
    exact execTxTick_of_loaded hf ha hb (State.AnswerDue.ne_done hdue)
      ((loadNext_of_answerDue_none hdue).trans (loadTraining_of_lt hlt)) (by simp)
  case training =>
    exact execTxTick_of_loaded hf ha hb (by simp [hp]) ((loadNext_training hp).trans (loadTraining_of_lt hlt))
      (by simp [hp])
  case noTrailer =>
    subst hx
    exact execTxTick_of_exhausted hf ha hb (State.AnswerDue.ne_done hdue)
      ((loadNext_of_answerDue_none hdue).trans (loadTraining_of_le (by simp [hzero]))) rfl
  case trailerSent =>
    exact execTxTick_of_exhausted hf ha hb (by simp [hp])
      ((loadNext_training hp).trans (loadTraining_of_le hle)) rfl

end Sys2Proof.Machine

/-! ## Control, registers and reset -/

namespace Sys2Proof.Machine

/-! ### RX_ENABLE and RX_DISABLE -/

theorem execRxEnable_faulted {s : State} (hf : s.fault = true) : execRxEnable s = .next s := by
  simp [execRxEnable, hf]

theorem execRxEnable_exclusion {s : State} (hf : s.fault = false) (ht : s.txArmed = true) :
    execRxEnable s = .next (s.raiseFault .exclusion) := by
  simp [execRxEnable, hf, ht]

theorem execRxEnable_arms {s : State} (hf : s.fault = false) (ht : s.txArmed = false) :
    execRxEnable s = .next s.armReceive := by
  simp [execRxEnable, hf, ht]

/-- Settles O42: one equation of RX_ENABLE for each clause. -/
theorem rxEnableArmsOrRaisesExclusion : Obligations.RxEnableArmsOrRaisesExclusion := by
  intro s
  refine ⟨fun hf ht => execRxEnable_arms hf ht, fun hf ht => ?_, fun hf => execRxEnable_faulted hf⟩
  rw [← State.raiseFault_of_unfaulted hf]
  exact execRxEnable_exclusion hf ht

theorem execRxDisable_faulted {s : State} (hf : s.fault = true) : execRxDisable s = .next s := by
  simp [execRxDisable, hf]

theorem execRxDisable_disarms {s : State} (hf : s.fault = false) :
    execRxDisable s = .next { s with rxArmed := false, decodePending := false } := by
  simp [execRxDisable, hf]

/-- Settles O43: RX_DISABLE writes two fields, and only while no fault is recorded. -/
theorem rxDisableStopsAtOnce : Obligations.RxDisableStopsAtOnce := fun _ =>
  ⟨execRxDisable_disarms, execRxDisable_faulted⟩

/-! ### RESET -/

/-- An empty log reads as its reset value in every entry (R44). -/
theorem logRead_nil (b : Buf) {i : Nat} (h : i < edgeCap) : logRead [] b i = some 0 := by
  rw [logRead_eq_some h, Memory.readCell_nil]

/-- Settles O46: RESET tests no field, so its one equation holds in every state. -/
theorem resetWritesEveryField : Obligations.ResetWritesEveryField := fun _ =>
  ⟨rfl, fun b _ h => logRead_nil b h⟩

/-! ### The register view, register by register (R46) -/

section
variable (s : State)

@[simp] theorem State.view_status : s.view 0x00#8 = some s.status := rfl
@[simp] theorem State.view_rxs : s.view 0x01#8 = some (s.rxs.code.setWidth 8) := rfl
@[simp] theorem State.view_endCause : s.view 0x02#8 = some (s.endCause.code.setWidth 8) := rfl
@[simp] theorem State.view_preambleCnt : s.view 0x03#8 = some (s.preambleCnt.setWidth 8) := rfl
@[simp] theorem State.view_time0_low : s.view 0x04#8 = some (s.time0.extractLsb' 0 8) := rfl
@[simp] theorem State.view_time0_middle : s.view 0x05#8 = some (s.time0.extractLsb' 8 8) := rfl
@[simp] theorem State.view_time0_high : s.view 0x06#8 = some (s.time0.extractLsb' 16 8) := rfl
@[simp] theorem State.view_count0 : s.view 0x07#8 = some (s.count0.setWidth 8) := rfl
@[simp] theorem State.view_count1 : s.view 0x08#8 = some (s.count1.setWidth 8) := rfl
@[simp] theorem State.view_lastByte : s.view 0x09#8 = some s.lastByte := rfl
@[simp] theorem State.view_txs : s.view 0x0A#8 = some (s.txs.code.setWidth 8) := rfl
@[simp] theorem State.view_txCur : s.view 0x0B#8 = some s.txCur := rfl
@[simp] theorem State.view_txBitsLeft : s.view 0x0C#8 = some (s.txBitsLeft.setWidth 8) := rfl
@[simp] theorem State.view_txRep : s.view 0x0D#8 = some s.txRep := rfl
@[simp] theorem State.view_txPin : s.view 0x0E#8 = some ((BitVec.ofBool s.txPin).setWidth 8) := rfl
@[simp] theorem State.view_faultCode : s.view 0x0F#8 = some (s.faultCode.code.setWidth 8) := rfl

variable {n : Byte}

/-- The sixteen registers that stand for fields are all mapped. -/
theorem State.exists_view_of_lt (h : n.toNat < 0x10) : ∃ v, s.view n = some v := by
  unfold State.view
  interval_cases n.toNat <;> exact ⟨_, rfl⟩

/-- From 0x10 up the view shows the log, buffer 0 below 0x30 and buffer 1 from there. -/
theorem State.view_of_ge (h : 0x10 ≤ n.toNat) :
    s.view n =
      if n.toNat < 0x30 then logRead s.log .b0 (n.toNat - 0x10) else logRead s.log .b1 (n.toNat - 0x30) := by
  unfold State.view
  split
  case h_17 => rfl
  all_goals omega

theorem State.view_b0 (hlo : 0x10 ≤ n.toNat) (hhi : n.toNat < 0x30) :
    s.view n = logRead s.log .b0 (n.toNat - 0x10) := by
  rw [s.view_of_ge hlo, if_pos hhi]

theorem State.view_b1 (hlo : 0x30 ≤ n.toNat) : s.view n = logRead s.log .b1 (n.toNat - 0x30) := by
  rw [s.view_of_ge (by omega), if_neg (by omega)]

end

/-! ### Mapped and unmapped numbers (R214) -/

/-- The register numbers that the view shows: fields and buffer 0 below 0x28, buffer 1 from 0x30. -/
def MappedReg (n : Byte) : Prop := n.toNat < 0x28 ∨ (0x30 ≤ n.toNat ∧ n.toNat < 0x48)

theorem State.exists_view_of_mapped (s : State) {n : Byte} (h : MappedReg n) : ∃ v, s.view n = some v := by
  by_cases hfield : n.toNat < 0x10
  · exact s.exists_view_of_lt hfield
  rcases h with hhi | ⟨hlo, hhi⟩
  · have hi : n.toNat - 0x10 < edgeCap := by unfold edgeCap; omega
    exact ⟨_, (s.view_b0 (by omega) (by omega)).trans (logRead_eq_some hi)⟩
  · have hi : n.toNat - 0x30 < edgeCap := by unfold edgeCap; omega
    exact ⟨_, (s.view_b1 hlo).trans (logRead_eq_some hi)⟩

theorem State.view_eq_none_of_unmapped (s : State) {n : Byte} (h : ¬MappedReg n) : s.view n = none := by
  obtain ⟨hb0, hb1⟩ := not_or.1 h
  by_cases hgap : n.toNat < 0x30
  · have hi : ¬n.toNat - 0x10 < edgeCap := by unfold edgeCap; omega
    exact (s.view_b0 (by omega) hgap).trans (logRead_eq_none hi)
  · have hi : ¬n.toNat - 0x30 < edgeCap := by unfold edgeCap; omega
    exact (s.view_b1 (by omega)).trans (logRead_eq_none hi)

theorem execReadReg_of_view {s : State} {n v : Byte} (h : s.view n = some v) :
    execReadReg n s = .next (s.emit (.reg n v)) := by
  simp [execReadReg, h]

theorem execReadReg_unmapped {s : State} {n : Byte} (h : s.view n = none) :
    execReadReg n s = .next (s.raiseFault .unmappedReg) := by
  simp [execReadReg, h]

/-- Settles O44: READ_REG asks only whether the view has the register, and every mapped number has one. -/
theorem readRegEmitsTheView : Obligations.ReadRegEmitsTheView := by
  refine fun n s => ⟨fun hmapped => ?_, fun hgap => ?_⟩
  · obtain ⟨v, hv⟩ := s.exists_view_of_mapped hmapped
    exact ⟨v, hv, execReadReg_of_view hv⟩
  · have hunmapped : ¬MappedReg n := by unfold MappedReg; omega
    exact execReadReg_unmapped (s.view_eq_none_of_unmapped hunmapped)

/-! ### What the registers show -/

theorem Buf.bit_eq_decide (b : Buf) : b.bit = decide (b = .b1) := by cases b <;> rfl

/-- The flags of STATUS, bit 0 first (R46). -/
def State.statusFlags (s : State) : List Bool :=
  [s.rxArmed, s.txArmed, s.rxDone, s.txDone, s.decodePending, s.endSeen, decide (s.active = .b1), s.fault]

theorem getLsbD_append_flag {k : Nat} (x : BitVec k) (b : Bool) (j : Nat) :
    (x ++ BitVec.ofBool b).getLsbD j = if j = 0 then b else x.getLsbD (j - 1) := by
  rw [BitVec.getLsbD_append]
  cases j <;> simp

/-- Bit j of STATUS is flag j: an appended flag is bit 0 and moves the others up by one. -/
theorem State.getLsbD_status (s : State) (j : Nat) : s.status.getLsbD j = s.statusFlags.getD j false := by
  refine (getLsbD_append_flag _ _ _).trans ?_
  simp only [getLsbD_append_flag, Buf.bit_eq_decide]
  rcases j with _ | _ | _ | _ | _ | _ | _ | _ | j <;> simp [statusFlags]

/-- The three bytes of a timestamp, least significant first (R60). -/
theorem toNat_eq_bytes (x : Stamp) :
    (x.extractLsb' 0 8).toNat + 256 * (x.extractLsb' 8 8).toNat + 65536 * (x.extractLsb' 16 8).toNat =
      x.toNat := by
  have hx : x.toNat < 2 ^ 24 := x.isLt
  simp only [BitVec.extractLsb'_toNat, Nat.shiftRight_eq_div_pow]
  omega

/-- Register 0x10 + i is entry i of buffer 0, whatever its count is (R215). -/
theorem State.view_entry_b0 (s : State) {i : Nat} (h : i < 24) :
    s.view (BitVec.ofNat 8 (0x10 + i)) = logRead s.log .b0 i := by
  have hn : (BitVec.ofNat 8 (0x10 + i)).toNat = 0x10 + i := by rw [BitVec.toNat_ofNat]; omega
  rw [s.view_b0 (by omega) (by omega), hn, Nat.add_sub_cancel_left]

/-- Register 0x30 + i is entry i of buffer 1, whatever its count is (R215). -/
theorem State.view_entry_b1 (s : State) {i : Nat} (h : i < 24) :
    s.view (BitVec.ofNat 8 (0x30 + i)) = logRead s.log .b1 i := by
  have hn : (BitVec.ofNat 8 (0x30 + i)).toNat = 0x30 + i := by rw [BitVec.toNat_ofNat]; omega
  rw [s.view_b1 (by omega), hn, Nat.add_sub_cancel_left]

/-- Settles O45: each register's equation, with the bits of STATUS, the bytes of `time0`, the codes by
cases on their enumerations and the buffers entry by entry. -/
theorem viewShowsEveryField : Obligations.ViewShowsEveryField := by
  intro s
  refine ⟨⟨_, s.view_status, s.getLsbD_status 0, s.getLsbD_status 1, s.getLsbD_status 2, s.getLsbD_status 3,
      s.getLsbD_status 4, s.getLsbD_status 5, s.getLsbD_status 6, s.getLsbD_status 7⟩, ?rxs, ?endCause,
    ⟨_, s.view_preambleCnt, BitVec.toNat_setWidth_of_le (by decide)⟩,
    ⟨_, _, _, s.view_time0_low, s.view_time0_middle, s.view_time0_high, toNat_eq_bytes s.time0⟩,
    ⟨_, s.view_count0, BitVec.toNat_setWidth_of_le (by decide)⟩,
    ⟨_, s.view_count1, BitVec.toNat_setWidth_of_le (by decide)⟩,
    s.view_lastByte, ?txs, s.view_txCur,
    ⟨_, s.view_txBitsLeft, BitVec.toNat_setWidth_of_le (by decide)⟩,
    s.view_txRep, ?txPin, ?faultCode,
    fun _ hi => s.view_entry_b0 hi, fun _ hi => s.view_entry_b1 hi⟩
  case rxs => exact s.view_rxs.trans (by cases s.rxs <;> rfl)
  case endCause => exact s.view_endCause.trans (by cases s.endCause <;> rfl)
  case txs => exact s.view_txs.trans (by cases s.txs <;> rfl)
  case txPin => exact s.view_txPin.trans (by cases s.txPin <;> rfl)
  case faultCode => exact s.view_faultCode.trans (by cases s.faultCode <;> rfl)

end Sys2Proof.Machine

/-! ## Exceptions -/

namespace Sys2Proof.Machine

/-! ### The faulted engine (R237) -/

section
variable {s : State} (hf : s.fault = true)
include hf

/-- The first fault is kept: a further one changes nothing (R236). -/
theorem State.raiseFault_of_faulted (k : FaultCode) : s.raiseFault k = s := by
  rw [State.raiseFault, if_pos hf, ← hf]

theorem execEdge_faulted (l : Bool) (ts : Stamp) : execEdge l ts s = .next s := if_pos hf

theorem execDecode_faulted : execDecode s = .next s := if_pos hf

theorem execTxTick_faulted (a : Option Byte) : execTxTick a s = .next s := if_pos hf

/-- Every event but READ_REG and RESET tests the fault flag before anything else. -/
theorem exec_faulted {i : Instr} (hreset : i ≠ .reset) (hread : ∀ n, i ≠ .readReg n) : exec i s = .next s := by
  cases i with
  | edge l ts => exact execEdge_faulted hf l ts
  | decode => exact execDecode_faulted hf
  | txTick a => exact execTxTick_faulted hf a
  | rxEnable => exact execRxEnable_faulted hf
  | rxDisable => exact execRxDisable_faulted hf
  | txEnable => exact execTxEnable_faulted hf
  | txDisable => exact execTxDisable_faulted hf
  | readReg n => exact absurd rfl (hread n)
  | reset => exact absurd rfl hreset

/-- READ_REG of an unmapped number raises a fault, which is not the first. -/
theorem execReadReg_unmapped_faulted {n : Byte} (h : s.view n = none) : execReadReg n s = .next s := by
  rw [execReadReg_unmapped h, State.raiseFault_of_faulted hf]

/-- An illegal word is delivered and raises a fault, which is not the first. -/
theorem step_illegalWord_faulted {w : Word} {rest : List Word} (htrace : s.trace = w :: rest)
    (hill : IllegalWord s.cfg w) : step s = .next { s with trace := rest } := by
  obtain ⟨hstep, -⟩ := illegalWordRaisesIllegalEvent s w rest htrace
  rw [hstep hill]
  exact congrArg Host.Outcome.next (State.raiseFault_of_faulted (s := { s with trace := rest }) hf .illegalEvent)

theorem State.properEnd_eq_false_of_faulted : s.properEnd = false := by
  simp [State.properEnd, hf]

end

/-- Settles O49: seven events test the flag first, a fault raised by a read or a word is not the first one,
and RESET tests nothing. -/
theorem faultedEngineIsQuiescent : Obligations.FaultedEngineIsQuiescent := fun _ hf =>
  ⟨fun _ hreset hread => exec_faulted hf hreset hread, fun _ _ hv => execReadReg_of_view hv,
    fun _ hv => execReadReg_unmapped_faulted hf hv,
    fun _ _ htrace hill => step_illegalWord_faulted hf htrace hill, ⟨_, rfl, rfl, rfl⟩,
    State.properEnd_eq_false_of_faulted hf⟩

end Sys2Proof.Machine

/-! ## Reset and hazards -/

namespace Sys2Proof.Machine

/-- With no event waiting and nothing emitted, RESET leaves of a state its parameters alone (R216). -/
theorem exec_reset_of_empty_streams {s : State} (htrace : s.trace = []) (hup : s.up = []) :
    exec .reset s = .next (State.resetWith s.cfg) := by
  obtain ⟨hreset, -⟩ := resetWritesEveryField s
  rw [hreset, htrace, hup, State.resetWith]

/-- STATUS after RESET, bit by bit: each flag it gathers is 0 (R44). -/
theorem State.status_resetWith (c : Config) : (State.resetWith c).status = 0 := by
  have hflags : (State.resetWith c).statusFlags = List.replicate 8 false := rfl
  refine BitVec.eq_of_getLsbD_eq fun j hj => ?_
  rw [State.getLsbD_status, hflags, List.getD_replicate _ hj]
  exact BitVec.getLsbD_zero.symm

/-- Settles O47: the parameters fix what RESET gives where the streams are empty, and each register shows
the code of its R44 value. -/
theorem powerOnIsReset : Obligations.PowerOnIsReset := by
  refine ⟨fun s hcfg htrace hup => ?reset, ?status, ?rxs, ?txs, ?txPin, ?faultCode⟩
  case reset =>
    calc exec .reset s
      _ = .next (State.resetWith s.cfg) := exec_reset_of_empty_streams htrace hup
      _ = .next State.reset := by rw [hcfg]; rfl
  case status => exact (State.view_status _).trans (congrArg some (State.status_resetWith _))
  case rxs => exact State.view_rxs _
  case txs => exact State.view_txs _
  case txPin => exact State.view_txPin _
  case faultCode => exact State.view_faultCode _

end Sys2Proof.Machine

/-! ## Runs of events -/

namespace Sys2Proof.Machine

/-- An event that completes hands its next state to the rest of the run (R56). -/
theorem runEvents_cons_of_next {i : Instr} {is : List Instr} {s t : State} (h : exec i s = .next t) :
    runEvents (i :: is) s = runEvents is t := by
  simp [runEvents, h]

/-- A run that completes hands its last state to the events after it. -/
theorem runEvents_append_of_next {is js : List Instr} {s t : State} (h : runEvents is s = .next t) :
    runEvents (is ++ js) s = runEvents js t := by
  induction is generalizing s with
  | nil => cases h; rfl
  | cons i is ih =>
    rw [runEvents] at h
    split at h
    · next u hu => exact (runEvents_cons_of_next hu).trans (ih h)
    · cases h
    · cases h

/-- Settles O7: where no word waits, none is delivered. -/
theorem stepWithoutEventChangesNothing : Obligations.StepWithoutEventChangesNothing := by
  intro s htrace
  have hfetch : fetch s = none := by simp [fetch, htrace]
  rw [step, hfetch]

/-- Settles O48: each disable clears the flag that the enable after it tests. -/
theorem directionSwitchIsSafe : Obligations.DirectionSwitchIsSafe := by
  intro s hf
  have hrx : exec .rxDisable s = .next { s with rxArmed := false, decodePending := false } :=
    execRxDisable_disarms hf
  have htx : exec .txDisable s = .next { s with txArmed := false, txPin := true } := execTxDisable_disarms hf
  constructor
  · refine ⟨_, (runEvents_cons_of_next hrx).trans (runEvents_cons_of_next (execTxEnable_arms hf rfl)), ?_⟩
    exact ⟨hf, rfl, rfl, rfl⟩
  · refine ⟨_, (runEvents_cons_of_next htx).trans (runEvents_cons_of_next (execRxEnable_arms hf rfl)), ?_⟩
    exact ⟨hf, rfl, rfl, rfl⟩

end Sys2Proof.Machine

/-! ## After a frame -/

namespace Sys2Proof.Machine

/-- An event of the upward stream that belongs to no frame. -/
def UpEvent.OutsideFrames (e : UpEvent) : Prop := e = .txDone ∨ ∃ n v, e = .reg n v

/-- What was emitted from `s` to `t` belongs to no frame. -/
def State.NoFrameEvents (s t : State) : Prop := ∃ es, t.up = s.up ++ es ∧ ∀ e ∈ es, e.OutsideFrames

theorem State.NoFrameEvents.of_up_eq {s t : State} (h : t.up = s.up) : s.NoFrameEvents t := ⟨[], by simp [h]⟩

theorem State.NoFrameEvents.of_emitted {s t : State} {e : UpEvent} (h : t.up = s.up ++ [e])
    (he : e.OutsideFrames) : s.NoFrameEvents t :=
  ⟨[e], h, by simpa using he⟩

theorem State.NoFrameEvents.trans {s t u : State} (hst : s.NoFrameEvents t) (htu : t.NoFrameEvents u) :
    s.NoFrameEvents u := by
  obtain ⟨es, hes, hout⟩ := hst
  obtain ⟨es', hes', hout'⟩ := htu
  refine ⟨es ++ es', by rw [hes', hes, List.append_assoc], fun e he => ?_⟩
  exact (List.mem_append.1 he).elim (hout e) (hout' e)

/-- Disarmed and with no request, receive stays so and emits nothing until it is enabled again: EDGE and DECODE
are masked, and the other events emit of their own kind only. -/
theorem exec_of_requestDropped {i : Instr} {s t : State} (h : s.RequestDropped)
    (hi : i ≠ .rxEnable ∧ i ≠ .reset) (hexec : exec i s = .next t) : t.RequestDropped ∧ s.NoFrameEvents t := by
  obtain ⟨henable, hreset⟩ := hi
  have hmasked := h
  obtain ⟨hdisarmed, hnone⟩ := hmasked
  cases i with
  | edge l ts =>
    cases (execEdge_masked hdisarmed l ts).symm.trans hexec
    exact ⟨h, .of_up_eq rfl⟩
  | decode =>
    cases (execDecode_unrequested hnone).symm.trans hexec
    exact ⟨h, .of_up_eq rfl⟩
  | txTick a =>
    cases effect_of_exec hexec with
    | tickFinish => exact ⟨h, .of_emitted rfl (.inl rfl)⟩
    | _ => exact ⟨h, .of_up_eq rfl⟩
  | rxEnable => exact absurd rfl henable
  | rxDisable =>
    cases effect_of_exec hexec with
    | disarmReceive => exact ⟨⟨rfl, rfl⟩, .of_up_eq rfl⟩
    | _ => exact ⟨h, .of_up_eq rfl⟩
  | txEnable => cases effect_of_exec hexec <;> exact ⟨h, .of_up_eq rfl⟩
  | txDisable => cases effect_of_exec hexec <;> exact ⟨h, .of_up_eq rfl⟩
  | readReg n =>
    cases effect_of_exec hexec with
    | readReg => exact ⟨h, .of_emitted rfl (.inr ⟨_, _, rfl⟩)⟩
    | _ => exact ⟨h, .of_up_eq rfl⟩
  | reset => exact absurd rfl hreset

/-- Settles O52: a frame end leaves receive disarmed and no request, and only RX_ENABLE and RESET change that. -/
theorem noDataAfterTheFrameEnds : Obligations.NoDataAfterTheFrameEnds := by
  intro is s t _ hdisarmed hnone hevents hrun
  have hkeeps : t.RequestDropped ∧ s.NoFrameEvents t := by
    refine runEvents_keeps (P := fun u => u.RequestDropped ∧ s.NoFrameEvents u) ?_
      ⟨⟨hdisarmed, hnone⟩, .of_up_eq rfl⟩ hrun
    rintro i hi u v ⟨hu, hsu⟩ hexec
    obtain ⟨hv, huv⟩ := exec_of_requestDropped hu (hevents i hi) hexec
    exact ⟨hv, hsu.trans huv⟩
  obtain ⟨-, hup⟩ := hkeeps
  exact hup

end Sys2Proof.Machine

/-! ## What the edge buffers hold -/

namespace Sys2Proof.Machine

/-- An edge that is gathered and is no boundary is an ordinary one (R141, R142). -/
theorem lt_of_gathered_ordinary {l : Bool} {iv : Byte} {s : State} (hend : gatherEnd l iv s = none)
    (hbound : isBoundary l iv = false) : iv.toNat < byteMin := by
  obtain ⟨-, hpol, -⟩ := gatherEnd_eq_none_iff.1 hend
  rcases wrongPolarity_eq_false_iff.1 hpol with hlt | rfl
  · exact hlt
  · by_contra hge
    simp [isBoundary_eq_true_iff.2 ⟨rfl, not_lt.1 hge⟩] at hbound

/-- The count of the active buffer after `Append` (R149). -/
theorem State.toNat_count_stored {s : State} (hlt : (s.count s.active).toNat < edgeCap) (iv : Byte) :
    ((s.stored iv).count s.active).toNat = (s.count s.active).toNat + 1 := by
  have hcount : (s.stored iv).count s.active = s.count s.active + 1 :=
    (s.count_setCount _ _ _).trans (if_pos rfl)
  rw [hcount]
  simp only [edgeCap] at hlt
  bv_omega

/-- The entries after `Append`: the new one, and the others as they were (R149). -/
theorem State.entry_stored {s : State} (hlt : (s.count s.active).toNat < edgeCap) (iv : Byte) (b : Buf) {i : Nat}
    (hi : i < edgeCap) :
    (s.stored iv).entry b i = if b = s.active ∧ i = (s.count s.active).toNat then iv else s.entry b i := by
  have hread := logRead_stored hlt iv b hi
  rw [logRead_eq_some hi, logRead_eq_some hi, ← apply_ite some] at hread
  exact Option.some_inj.1 hread

/-- `Append` of an ordinary edge keeps the active buffer ordinary (R141). -/
theorem State.ordinary_stored {s : State} (hlt : (s.count s.active).toNat < edgeCap) {iv : Byte}
    (hiv : iv.toNat < byteMin) (h : ∀ i < (s.count s.active).toNat, (s.entry s.active i).toNat < byteMin) :
    ∀ i < ((s.stored iv).count s.active).toNat, ((s.stored iv).entry s.active i).toNat < byteMin := by
  intro i hi
  rw [State.toNat_count_stored hlt] at hi
  rw [State.entry_stored hlt iv _ (by omega)]
  split
  · exact hiv
  · next hne => exact h i (by simp only [true_and] at hne; omega)

/-- `Append` leaves the completed buffer as it is (R29, R149). -/
theorem State.entry_completed_stored {s : State} (hlt : (s.count s.active).toNat < edgeCap) (iv : Byte) {i : Nat}
    (hi : i < edgeCap) : (s.stored iv).entry s.completed i = s.entry s.completed i := by
  rw [State.entry_stored hlt iv _ hi, if_neg fun h => s.completed_ne_active h.1]

/-- An ordinary edge is one more ordinary entry of the active buffer, and a requested buffer stays (R142). -/
theorem State.BuffersInv.append {s : State} (h : s.BuffersInv) (hfields : s.FieldsLegal)
    (hlt : (s.count s.active).toNat < edgeCap) {iv : Byte} (hiv : iv.toNat < byteMin) (hg : s.rxs = .gathering) :
    (s.stored iv).BuffersInv where
  ordinary _ := State.ordinary_stored hlt hiv (h.ordinary hg)
  handed hpend := by
    obtain ⟨hpos, hord, hmin, hmax⟩ := h.handed hpend
    have hcount : (s.stored iv).count s.completed = s.count s.completed := s.count_completed_setCount_active _
    have hle : (s.count s.completed).toNat ≤ edgeCap := hfields.count_le _
    have hcompleted : (s.stored iv).completed = s.completed := rfl
    rw [hcompleted, hcount]
    refine ⟨hpos, fun i hi => ?_, ?_⟩
    · rw [State.entry_completed_stored hlt iv (by omega)]
      exact hord i hi
    · rw [State.entry_completed_stored hlt iv (by omega)]
      exact ⟨hmin, hmax⟩

/-- The buffer that is handed over is the one that was being filled (R151). -/
theorem State.completed_handoff (s : State) (now : Stamp) : (s.handoff now).completed = s.active :=
  Buf.flip_flip s.active

theorem State.count_completed_handoff (s : State) (now : Stamp) :
    (s.handoff now).count s.active = s.count s.active :=
  (s.count_setCount _ _ _).trans (if_neg (Buf.ne_flip _))

/-- The new active buffer is empty (R151). -/
theorem State.count_active_handoff (s : State) (now : Stamp) :
    (s.handoff now).count (s.handoff now).active = 0 :=
  (s.count_setCount _ _ _).trans (if_pos rfl)

/-- A boundary ends a buffer of ordinary entries, which becomes the completed one; the new one is empty (R151). -/
theorem State.BuffersInv.boundary {s : State} (h : s.BuffersInv) (hlt : (s.count s.active).toNat < edgeCap)
    {iv : Byte} (hmin : byteMin ≤ iv.toNat) (hmax : iv.toNat ≤ byteMax) (hg : s.rxs = .gathering) (now : Stamp) :
    ((s.stored iv).handoff now).BuffersInv := by
  have hcompleted : ((s.stored iv).handoff now).completed = s.active := State.completed_handoff _ now
  have hcount : (((s.stored iv).handoff now).count s.active).toNat = (s.count s.active).toNat + 1 := by
    rw [← State.toNat_count_stored hlt iv]
    exact congrArg BitVec.toNat (State.count_completed_handoff _ now)
  have hlast : ((s.stored iv).handoff now).entry s.active (s.count s.active).toNat = iv :=
    (State.entry_stored hlt iv _ hlt).trans (if_pos ⟨rfl, rfl⟩)
  constructor
  · intro _ i hi
    rw [State.count_active_handoff] at hi
    exact absurd hi (Nat.not_lt_zero i)
  · intro _
    rw [hcompleted, hcount, Nat.add_sub_cancel, hlast]
    refine ⟨by omega, fun i hi => ?_, hmin, hmax⟩
    have hother : ((s.stored iv).handoff now).entry s.active i = s.entry s.active i :=
      (State.entry_stored hlt iv _ (hi.trans hlt)).trans (if_neg fun e => hi.ne e.2)
    rw [hother]
    exact h.ordinary hg i hi

/-- Where nothing is gathered and nothing is pending, nothing is asked of the buffers. -/
theorem State.BuffersInv.of_idle {s : State} (hg : s.rxs ≠ .gathering) (hpend : s.decodePending = false) :
    s.BuffersInv where
  ordinary h := absurd h hg
  handed h := by simp [hpend] at h

theorem Effect.keeps_buffersInv {i : Instr} {s t : State} (hfields : s.FieldsLegal) (hflags : s.ReceiveFlags)
    (h : s.BuffersInv) (he : Effect i s t) : t.BuffersInv := by
  cases he with
  | scan hs hr =>
    obtain ⟨hpend, -, -⟩ := hflags.of_scanning hs
    obtain ⟨hng, -, -⟩ := hr
    exact .of_idle hng hpend
  | startFrame hw =>
    obtain ⟨hpend, -, -⟩ := hflags.of_scanning (by simp [RxState.Scanning, hw])
    have hempty : (State.setCount s s.active 0).count s.active = 0 := (s.count_setCount _ _ _).trans (if_pos rfl)
    refine ⟨fun _ i hi => absurd hi ?_, fun hp => by simp [hpend] at hp⟩
    exact hempty ▸ Nat.not_lt_zero i
  | terminate => exact .of_idle (by simp) rfl
  | append _ hg hend hbound hlt =>
    exact h.append hfields hlt (lt_of_gathered_ordinary hend hbound) hg
  | boundary _ hg hend hbound hlt =>
    obtain ⟨hlong, -⟩ := gatherEnd_eq_none_iff.1 hend
    obtain ⟨-, hmin⟩ := isBoundary_eq_true_iff.1 hbound
    exact h.boundary hlt hmin (tooLong_eq_false_iff.1 hlong) hg _
  | commit => exact ⟨h.ordinary, by simp⟩
  | armReceive => exact .of_idle (by simp) rfl
  | disarmReceive => exact ⟨h.ordinary, by simp⟩
  | reset => exact .of_idle (by simp [State.resetWith]) rfl
  | _ => exact ⟨h.ordinary, h.handed⟩

/-- Settles O58: a count within the capacity and a request inside an armed frame are what the buffers' invariant
needs of the main one, so the three are kept together. -/
theorem stepKeepsTheBuffers : Obligations.StepKeepsTheBuffers := by
  intro s t hinv h hs
  have hkept : t.FieldsLegal ∧ t.ReceiveFlags ∧ t.BuffersInv := by
    refine step_keeps (P := fun u => u.FieldsLegal ∧ u.ReceiveFlags ∧ u.BuffersInv) ?_ ?_ ?_
      ⟨hinv.fields, hinv.receive, h⟩ hs
    · exact fun _ _ ⟨hf, hr, hb⟩ => ⟨{ hf with }, { hr with }, ⟨hb.ordinary, hb.handed⟩⟩
    · exact fun _ ⟨hf, hr, hb⟩ => ⟨{ hf with }, { hr with }, ⟨hb.ordinary, hb.handed⟩⟩
    · exact fun ⟨hf, hr, hb⟩ he =>
        ⟨he.keeps_fieldsLegal hf, he.keeps_receiveFlags hr, he.keeps_buffersInv hf hr hb⟩
  obtain ⟨-, -, hbuffers⟩ := hkept
  exact hbuffers

end Sys2Proof.Machine

/-! ## Scanning runs -/

namespace Sys2Proof.Machine

/-- A scanning transition from `s` to `t`, which is in state `r` with the reference at `now` (R128). -/
structure State.ScannedTo (s t : State) (r : RxState) (now : Stamp) : Prop where
  rxs : t.rxs = r
  time0 : t.time0 = now
  cfg : t.cfg = s.cfg
  fault : t.fault = s.fault
  rxArmed : t.rxArmed = s.rxArmed
  active : t.active = s.active
  decodePending : t.decodePending = s.decodePending
  up : t.up = s.up

theorem State.scannedTo_update (s : State) (cnt : BitVec 7) (r : RxState) (now : Stamp) :
    s.ScannedTo { s with rxs := r, preambleCnt := cnt, time0 := now } r now :=
  ⟨rfl, rfl, rfl, rfl, rfl, rfl, rfl, rfl⟩

/-- The next interval is measured from the transition's edge (R101, R103). -/
theorem State.ScannedTo.intervalAt {s t : State} {r : RxState} {now : Stamp} (h : s.ScannedTo t r now)
    (ts : Stamp) : t.intervalAt ts = interval s.cfg now (sampleNow s.cfg ts) := by
  rw [State.intervalAt, h.cfg, h.time0]

theorem State.ScannedTo.trans {s t u : State} {r r' : RxState} {now now' : Stamp} (h : s.ScannedTo t r now)
    (h' : t.ScannedTo u r' now') : s.ScannedTo u r' now' where
  rxs := h'.rxs
  time0 := h'.time0
  cfg := h'.cfg.trans h.cfg
  fault := h'.fault.trans h.fault
  rxArmed := h'.rxArmed.trans h.rxArmed
  active := h'.active.trans h.active
  decodePending := h'.decodePending.trans h.decodePending
  up := h'.up.trans h.up

section
variable {s : State} (hf : s.fault = false) (ha : s.rxArmed = true) {ts : Stamp}
include hf ha

/-- A falling edge in Idle keeps Idle (R120). -/
theorem exec_falling_of_idle (hr : s.rxs = .idle) (ts : Stamp) :
    ∃ t, exec (.edge false ts) s = .next t ∧ s.ScannedTo t .idle (sampleNow s.cfg ts) :=
  ⟨_, edgeInIdle false ts s hf ha hr, s.scannedTo_update _ _ _⟩

/-- From Idle, High or Low a rising edge enters High, whatever its interval (R120, R121, R122). -/
theorem exec_rising_of_searching (hr : s.rxs = .idle ∨ s.rxs = .high ∨ s.rxs = .low) (ts : Stamp) :
    ∃ t, exec (.edge true ts) s = .next t ∧ s.ScannedTo t .high (sampleNow s.cfg ts) := by
  rcases hr with hr | hr | hr
  · exact ⟨_, edgeInIdle true ts s hf ha hr, s.scannedTo_update _ _ _⟩
  · exact ⟨_, edgeInHigh true ts s hf ha hr, s.scannedTo_update _ _ _⟩
  · exact ⟨_, edgeInLow true ts s hf ha hr, s.scannedTo_update _ _ _⟩

/-- A falling edge in Low keeps Low (R122). -/
theorem exec_falling_of_low (hr : s.rxs = .low) (ts : Stamp) :
    ∃ t, exec (.edge false ts) s = .next t ∧ s.ScannedTo t .low (sampleNow s.cfg ts) :=
  ⟨_, edgeInLow false ts s hf ha hr, s.scannedTo_update _ _ _⟩

/-- A high run of less than 117 units enters Low at its falling edge (R121). -/
theorem exec_falling_of_shortHigh (hr : s.rxs = .high) (hlt : (s.intervalAt ts).toNat < 117) :
    ∃ t, exec (.edge false ts) s = .next t ∧ s.ScannedTo t .low (sampleNow s.cfg ts) := by
  have hexec := edgeInHigh false ts s hf ha hr
  rw [if_neg Bool.false_ne_true, if_neg (not_le.2 hlt)] at hexec
  exact ⟨_, hexec, s.scannedTo_update _ _ _⟩

/-- A high run of at least 117 units enters CheckSync1 at its falling edge (R121). -/
theorem exec_falling_of_longHigh (hr : s.rxs = .high) (hmin : 117 ≤ (s.intervalAt ts).toNat) :
    ∃ t, exec (.edge false ts) s = .next t ∧ s.ScannedTo t .checkSync1 (sampleNow s.cfg ts) := by
  have hexec := edgeInHigh false ts s hf ha hr
  rw [if_neg Bool.false_ne_true, if_pos hmin] at hexec
  exact ⟨_, hexec, s.scannedTo_update _ _ _⟩

/-- A low run of 117..130 units after it enters WaitStop at its rising edge (R123). -/
theorem exec_rising_of_longLow (hr : s.rxs = .checkSync1) (hmin : 117 ≤ (s.intervalAt ts).toNat)
    (hmax : (s.intervalAt ts).toNat ≤ 130) :
    ∃ t, exec (.edge true ts) s = .next t ∧ s.ScannedTo t .waitStop (sampleNow s.cfg ts) := by
  have hexec := edgeInCheckSync1 true ts s hf ha hr
  rw [if_pos rfl, if_pos ⟨hmin, hmax⟩] at hexec
  exact ⟨_, hexec, s.scannedTo_update _ _ _⟩

end

/-- The state right after a frame start (R126). -/
structure State.FrameStarted (s t : State) (ts : Stamp) : Prop where
  cfg : t.cfg = s.cfg
  fault : t.fault = s.fault
  rxArmed : t.rxArmed = s.rxArmed
  rxs : t.rxs = .gathering
  up : t.up = s.up ++ [.frameStart]
  active : t.active = s.active
  empty : t.count t.active = 0
  time0 : t.time0 = sampleNow s.cfg ts
  endSeen : t.endSeen = false
  decodePending : t.decodePending = s.decodePending

/-- The falling edge in WaitStop starts the frame, whatever its interval (R124). -/
theorem exec_falling_of_waitStop {s : State} (hf : s.fault = false) (ha : s.rxArmed = true)
    (hr : s.rxs = .waitStop) (ts : Stamp) : ∃ t, exec (.edge false ts) s = .next t ∧ s.FrameStarted t ts := by
  refine ⟨_, (execEdge_processed hf ha).trans (edgeRule_waitStop hr), ?_⟩
  exact
    { cfg := rfl, fault := rfl, rxArmed := rfl, rxs := rfl, up := rfl, active := rfl
      empty := (State.count_setCount _ _ _ _).trans (if_pos rfl)
      time0 := rfl, endSeen := rfl, decodePending := rfl }

/-- A frame start after scanning transitions, seen from the state before them. -/
theorem State.ScannedTo.frameStarted {s s' t : State} {r : RxState} {now ts : Stamp} (h : s.ScannedTo s' r now)
    (h' : s'.FrameStarted t ts) : s.FrameStarted t ts where
  cfg := h'.cfg.trans h.cfg
  fault := h'.fault.trans h.fault
  rxArmed := h'.rxArmed.trans h.rxArmed
  rxs := h'.rxs
  up := by rw [h'.up, h.up]
  active := h'.active.trans h.active
  empty := h'.empty
  time0 := by rw [h'.time0, h.cfg]
  endSeen := h'.endSeen
  decodePending := h'.decodePending.trans h.decodePending

/-- Settles O19: each of the four edges meets the condition of its own state. -/
theorem syncWordStartsFrame : Obligations.SyncWordStartsFrame := by
  intro s ts1 ts2 ts3 ts4 hf ha hr hhigh hlow hmax
  obtain ⟨s1, hedge1, h1⟩ := exec_rising_of_searching hf ha hr ts1
  rw [← h1.intervalAt] at hhigh
  obtain ⟨s2, hedge2, h12⟩ := exec_falling_of_longHigh (h1.fault.trans hf) (h1.rxArmed.trans ha) h1.rxs hhigh
  rw [h1.cfg] at h12
  have h2 := h1.trans h12
  rw [← h2.intervalAt] at hlow hmax
  obtain ⟨s3, hedge3, h23⟩ := exec_rising_of_longLow (h2.fault.trans hf) (h2.rxArmed.trans ha) h2.rxs hlow hmax
  have h3 := h2.trans h23
  obtain ⟨t, hedge4, h3t⟩ := exec_falling_of_waitStop (h3.fault.trans hf) (h3.rxArmed.trans ha) h3.rxs ts4
  have ht := h3.frameStarted h3t
  refine ⟨t, ?_, ht.rxs, ht.up, ht.active, ht.empty, ht.time0, ht.endSeen⟩
  rw [runEvents_cons_of_next hedge1, runEvents_cons_of_next hedge2, runEvents_cons_of_next hedge3,
    runEvents_cons_of_next hedge4, runEvents]

/-- Armed and unfaulted, in High or Low. -/
structure State.InHighOrLow (s : State) : Prop where
  unfaulted : s.fault = false
  armed : s.rxArmed = true
  scanning : s.rxs = .high ∨ s.rxs = .low

/-- Only a falling edge at 117 units or more leaves High and Low (R121, R122). -/
theorem State.InHighOrLow.edge {s : State} (h : s.InHighOrLow) {l : Bool} {ts : Stamp}
    (hshort : l = false → s.rxs = .high → (s.intervalAt ts).toNat < 117) :
    ∃ t, exec (.edge l ts) s = .next t ∧ t.InHighOrLow ∧ t.up = s.up := by
  obtain ⟨hf, ha, hr⟩ := h
  have hscan : ∃ t r, exec (.edge l ts) s = .next t ∧ s.ScannedTo t r (sampleNow s.cfg ts) ∧
      (r = .high ∨ r = .low) := by
    cases l with
    | true =>
      obtain ⟨t, hexec, ht⟩ := exec_rising_of_searching hf ha (.inr hr) ts
      exact ⟨t, _, hexec, ht, .inl rfl⟩
    | false =>
      rcases hr with hr | hr
      · obtain ⟨t, hexec, ht⟩ := exec_falling_of_shortHigh hf ha hr (hshort rfl hr)
        exact ⟨t, _, hexec, ht, .inr rfl⟩
      · obtain ⟨t, hexec, ht⟩ := exec_falling_of_low hf ha hr ts
        exact ⟨t, _, hexec, ht, .inr rfl⟩
  obtain ⟨t, r, hexec, ht, hto⟩ := hscan
  exact ⟨t, hexec, ⟨ht.fault.trans hf, ht.rxArmed.trans ha, by rwa [ht.rxs]⟩, ht.up⟩

/-- A condition on every event of a run, taken apart at the first event, which completes. -/
theorem alongRun_cons {p : State → Instr → Bool} {i : Instr} {is : List Instr} {s t : State}
    (hexec : exec i s = .next t) : alongRun p (i :: is) s = true ↔ p s i = true ∧ alongRun p is t = true := by
  simp [alongRun, hexec]

theorem alongRun_head {p : State → Instr → Bool} {i : Instr} {is : List Instr} {s : State}
    (h : alongRun p (i :: is) s = true) : p s i = true := by
  rw [alongRun, Bool.and_eq_true] at h
  obtain ⟨hp, -⟩ := h
  exact hp

/-- A condition that keeps each falling edge in High short keeps the whole run in High and Low. -/
theorem State.InHighOrLow.run {p : State → Instr → Bool}
    (hp : ∀ u ts, p u (.edge false ts) = true → u.rxs = .high → (u.intervalAt ts).toNat < 117)
    {es : List (Bool × Stamp)} {s : State} (h : s.InHighOrLow)
    (hrun : alongRun p (es.map fun e => Instr.edge e.1 e.2) s = true) :
    ∃ t, runEvents (es.map fun e => Instr.edge e.1 e.2) s = .next t ∧ t.InHighOrLow ∧ t.up = s.up := by
  induction es generalizing s with
  | nil => exact ⟨s, rfl, h, rfl⟩
  | cons e es ih =>
    have hshort : e.1 = false → s.rxs = .high → (s.intervalAt e.2).toNat < 117 := fun hl =>
      hp s e.2 (hl ▸ alongRun_head hrun)
    obtain ⟨u, hu, hin, hup⟩ := h.edge hshort
    obtain ⟨-, hrest⟩ := (alongRun_cons hu).1 hrun
    obtain ⟨t, ht, hout, hup'⟩ := ih hin hrest
    exact ⟨t, (runEvents_cons_of_next hu).trans ht, hout, hup'.trans hup⟩

/-- Settles O20: one short edge stays in High and Low, so the run does. -/
theorem shortHighRunsNeverLeaveScanning : Obligations.ShortHighRunsNeverLeaveScanning := by
  intro s es hf ha hr hrun
  obtain ⟨t, ht, hout, hup⟩ :=
    State.InHighOrLow.run (fun _ _ hp => of_decide_eq_true hp) ⟨hf, ha, hr⟩ hrun
  exact ⟨t, ht, hout.scanning, hup, hout.armed⟩

end Sys2Proof.Machine

/-! ## The interval over a gap -/

namespace Sys2Proof.Machine

theorem Config.two_pow_width_le {c : Config} (h : c.wf = true) : 2 ^ c.width ≤ 2 ^ 24 :=
  Nat.pow_le_pow_right (by decide) (Config.width_le_of_wf h)

/-- A timebase value of W bits is held in 24 bits as it is (R27). -/
theorem toNat_stamp_mod {c : Config} (h : c.wf = true) (n : Nat) :
    (BitVec.ofNat 24 (n % 2 ^ c.width)).toNat = n % 2 ^ c.width := by
  rw [BitVec.toNat_ofNat, Nat.mod_eq_of_lt]
  exact (Nat.mod_lt _ (Nat.two_pow_pos _)).trans_le (Config.two_pow_width_le h)

/-- Settles O9: in arithmetic modulo 2^W the difference gives the gap back, which is below 2^W. -/
theorem intervalMeasuresTheGap : Obligations.IntervalMeasuresTheGap := by
  intro c time0 gap hc ht hgap
  have hnow : (BitVec.ofNat 24 ((time0.toNat + gap) % 2 ^ c.width)).toNat = (time0.toNat + gap) % 2 ^ c.width :=
    toNat_stamp_mod hc _
  have hdelta : ((time0.toNat + gap) % 2 ^ c.width + 2 ^ c.width - time0.toNat) % 2 ^ c.width = gap := by
    generalize 2 ^ c.width = m at *
    rcases lt_or_ge (time0.toNat + gap) m with hlt | hge
    · rw [Nat.mod_eq_of_lt hlt, show time0.toNat + gap + m - time0.toNat = gap + m by omega, Nat.add_mod_right,
        Nat.mod_eq_of_lt hgap]
    · have hwrap : (time0.toNat + gap) % m = time0.toNat + gap - m := by
        rw [Nat.mod_eq_sub_mod hge, Nat.mod_eq_of_lt (by omega)]
      rw [hwrap, show time0.toNat + gap - m + m - time0.toNat = gap by omega, Nat.mod_eq_of_lt hgap]
  rw [intervalIsClampedModularDifference c time0 _ hc ht (hnow.trans_lt (Nat.mod_lt _ (Nat.two_pow_pos _))), hnow,
    hdelta]

end Sys2Proof.Machine

/-! ## The frame of each event -/

namespace Sys2Proof.Machine

/-- An EDGE writes the receive fields and, of the log, at most the next entry of the active buffer. -/
theorem execEdge_frame {l : Bool} {ts : Stamp} {s t : State} (h : execEdge l ts s = .next t) :
    t = { s with
          rxArmed := t.rxArmed, rxs := t.rxs, endCause := t.endCause, rxDone := t.rxDone
          time0 := t.time0, preambleCnt := t.preambleCnt, active := t.active, count0 := t.count0
          count1 := t.count1, log := t.log, decodePending := t.decodePending, endSeen := t.endSeen
          up := t.up } ∧
    ∀ (b : Buf) (k : Nat), k < 24 → ¬(b = s.active ∧ k = (s.count s.active).toNat) →
      logRead t.log b k = logRead s.log b k := by
  rcases execEdge_next h with ⟨-, rfl⟩ | ⟨-, -, hrule⟩
  · exact ⟨rfl, fun _ _ _ _ => rfl⟩
  rcases edgeRule_next hrule with ⟨r, -, -, -, -, -, -, rfl⟩ | ⟨-, -, rfl⟩ | ⟨-, hgather⟩
  · exact ⟨rfl, fun _ _ _ _ => rfl⟩
  · exact ⟨rfl, fun _ _ _ _ => rfl⟩
  rcases gatherEdge_next hgather with ⟨c, -, rfl⟩ | ⟨-, u, hu, rfl⟩
  · exact ⟨rfl, fun _ _ _ _ => rfl⟩
  obtain ⟨hlt, rfl⟩ := State.append_eq_some_iff.1 hu
  have hcell : ∀ (iv : Byte) (b : Buf) (k : Nat), k < 24 → ¬(b = s.active ∧ k = (s.count s.active).toNat) →
      logRead (s.stored iv).log b k = logRead s.log b k := fun iv b k hk hne =>
    (logRead_stored hlt iv b hk).trans (if_neg hne)
  split
  · exact ⟨rfl, hcell _⟩
  · exact ⟨rfl, hcell _⟩

theorem execDecode_frame {s t : State} (h : execDecode s = .next t) :
    t = { s with
          lastByte := t.lastByte, endSeen := t.endSeen, decodePending := t.decodePending, up := t.up } := by
  rcases execDecode_next h with ⟨-, rfl⟩ | ⟨-, -, es, -, rfl⟩ <;> rfl

/-- A TX_TICK writes the cursor, the line, `tx_done` and the stream: LoadNext writes the cursor alone. -/
theorem execTxTick_frame {a : Option Byte} {s t : State} (h : execTxTick a s = .next t) :
    t = { s with
          txs := t.txs, txCur := t.txCur, txBitsLeft := t.txBitsLeft, txRep := t.txRep
          txPin := t.txPin, txDone := t.txDone, up := t.up } := by
  obtain ⟨p, x, r, hload⟩ := loadNext_frame a s
  rcases execTxTick_next h with ⟨-, rfl⟩ | ⟨-, -, ⟨-, rfl⟩ | ⟨-, -, -, rfl⟩ | ⟨-, -, -, hbit⟩ | ⟨-, -, hbit⟩⟩
  · rfl
  · rfl
  · rw [hload]; rfl
  · rw [hload] at hbit
    obtain ⟨-, rfl⟩ := driveBit_next hbit
    rfl
  · obtain ⟨-, rfl⟩ := driveBit_next hbit
    rfl

/-- Settles O53: each event's inversion lemma gives the updates that the event makes, and they are updates of
its own fields. -/
theorem eventsWriteOnlyTheirFields : Obligations.EventsWriteOnlyTheirFields := by
  intro i s t h
  cases i with
  | edge l ts => exact execEdge_frame h
  | decode => exact execDecode_frame h
  | txTick a => exact execTxTick_frame h
  | rxEnable => rcases execRxEnable_next h with ⟨-, rfl⟩ | ⟨-, -, rfl⟩ | ⟨-, -, rfl⟩ <;> rfl
  | rxDisable => rcases execRxDisable_next h with ⟨-, rfl⟩ | ⟨-, rfl⟩ <;> rfl
  | txEnable => rcases execTxEnable_next h with ⟨-, rfl⟩ | ⟨-, -, rfl⟩ | ⟨-, -, rfl⟩ <;> rfl
  | txDisable => rcases execTxDisable_next h with ⟨-, rfl⟩ | ⟨-, rfl⟩ <;> rfl
  | readReg n => rcases execReadReg_next h with ⟨-, rfl⟩ | ⟨v, -, rfl⟩ <;> rfl
  | reset => rw [execReset_next h]; exact ⟨rfl, rfl, rfl⟩

end Sys2Proof.Machine

/-! ## Who writes the fault state -/

namespace Sys2Proof.Machine

/-- The cases in which an event raises an engine fault, each with its code (R211, R181, R214). -/
def Raises (i : Instr) (s : State) (k : FaultCode) : Prop :=
  (i = .rxEnable ∧ s.txArmed = true ∧ k = .exclusion) ∨
  (i = .txEnable ∧ s.rxArmed = true ∧ k = .exclusion) ∨
  (∃ n, i = .readReg n ∧ s.view n = none ∧ k = .unmappedReg)

/-- An event other than RESET keeps the fault state or raises a fault in its own case. -/
theorem exec_keeps_fault_or_raises {i : Instr} {s t : State} (hreset : i ≠ .reset) (h : exec i s = .next t) :
    (t.fault = s.fault ∧ t.faultCode = s.faultCode) ∨ ∃ k, t = s.raiseFault k ∧ Raises i s k := by
  cases i with
  | edge l ts =>
    obtain ⟨ht, -⟩ := execEdge_frame h
    exact .inl ⟨(congrArg State.fault ht :), (congrArg State.faultCode ht :)⟩
  | decode =>
    have ht := execDecode_frame h
    exact .inl ⟨(congrArg State.fault ht :), (congrArg State.faultCode ht :)⟩
  | txTick a =>
    have ht := execTxTick_frame h
    exact .inl ⟨(congrArg State.fault ht :), (congrArg State.faultCode ht :)⟩
  | rxEnable =>
    rcases execRxEnable_next h with ⟨-, rfl⟩ | ⟨-, htx, rfl⟩ | ⟨-, -, rfl⟩
    · exact .inl ⟨rfl, rfl⟩
    · exact .inr ⟨_, rfl, .inl ⟨rfl, htx, rfl⟩⟩
    · exact .inl ⟨rfl, rfl⟩
  | rxDisable => rcases execRxDisable_next h with ⟨-, rfl⟩ | ⟨-, rfl⟩ <;> exact .inl ⟨rfl, rfl⟩
  | txEnable =>
    rcases execTxEnable_next h with ⟨-, rfl⟩ | ⟨-, hrx, rfl⟩ | ⟨-, -, rfl⟩
    · exact .inl ⟨rfl, rfl⟩
    · exact .inr ⟨_, rfl, .inr (.inl ⟨rfl, hrx, rfl⟩)⟩
    · exact .inl ⟨rfl, rfl⟩
  | txDisable => rcases execTxDisable_next h with ⟨-, rfl⟩ | ⟨-, rfl⟩ <;> exact .inl ⟨rfl, rfl⟩
  | readReg n =>
    rcases execReadReg_next h with ⟨hnone, rfl⟩ | ⟨v, -, rfl⟩
    · exact .inr ⟨_, rfl, .inr (.inr ⟨n, rfl, hnone, rfl⟩)⟩
    · exact .inl ⟨rfl, rfl⟩
  | reset => exact absurd rfl hreset

/-- Settles O50: an event other than RESET keeps the fault state or raises a fault, and a raised fault sets the
flag, with its own code where it is the first one. -/
theorem onlyHostCommandsWriteTheFault : Obligations.OnlyHostCommandsWriteTheFault := by
  intro i s t h
  refine ⟨fun hrx htx hread hreset => ?others, fun hreset hclear => ?clear, fun hreset hset => ?recorded,
    fun hclear hset => ?raised⟩
  case others =>
    rcases exec_keeps_fault_or_raises hreset h with hkept | ⟨k, -, hcase⟩
    · exact hkept
    · rcases hcase with ⟨rfl, -⟩ | ⟨rfl, -⟩ | ⟨n, rfl, -⟩
      · exact absurd rfl hrx
      · exact absurd rfl htx
      · exact absurd rfl (hread n)
  case clear =>
    rcases exec_keeps_fault_or_raises hreset h with ⟨-, hcode⟩ | ⟨k, rfl, -⟩
    · exact hcode
    · exact absurd hclear (by simp)
  case recorded =>
    rcases exec_keeps_fault_or_raises hreset h with ⟨hflag, hcode⟩ | ⟨k, rfl, -⟩
    · exact ⟨hflag.trans hset, hcode⟩
    · rw [State.raiseFault_of_faulted hset]
      exact ⟨hset, rfl⟩
  case raised =>
    have hreset : i ≠ .reset := by
      rintro rfl
      cases execReset_next h
      exact absurd hset (by simp [State.resetWith])
    rcases exec_keeps_fault_or_raises hreset h with ⟨hflag, -⟩ | ⟨k, rfl, hcase⟩
    · exact absurd (hflag.symm.trans hset) (by simp [hclear])
    · rw [State.raiseFault_of_unfaulted hclear]
      exact hcase

end Sys2Proof.Machine

/-! ## The interval walk and the closed form -/

namespace Sys2Proof.Machine

/-! ### Units at level 1 -/

/-- The units at level 1 of the `n` units from `a` on, where `level u` is the level of unit `u`. -/
def highIn (level : Nat → Bool) (a n : Nat) : Nat := (List.range n).countP fun j => level (a + j)

theorem highIn_add (level : Nat → Bool) (a n m : Nat) :
    highIn level a (n + m) = highIn level a n + highIn level (a + n) m := by
  simp [highIn, List.range_add, List.countP_map, Function.comp_def, Nat.add_assoc]

theorem highIn_of_constant {level : Nat → Bool} {a n : Nat} {v : Bool}
    (h : ∀ u, a ≤ u → u < a + n → level u = v) : highIn level a n = if v then n else 0 := by
  have hv : highIn level a n = (List.range n).countP fun _ => v := by
    refine List.countP_congr fun j hj => ?_
    rw [h (a + j) (Nat.le_add_right a j) (Nat.add_lt_add_left (List.mem_range.1 hj) a)]
  cases v <;> simp [hv]

/-! ### The walk has read the units below its position -/

section
variable {c : Config} {level : Nat → Bool} {k : Walk}

@[simp] theorem Walk.closeSlot_pos : (k.closeSlot c).pos = k.bound := rfl
@[simp] theorem Walk.closeSlot_slot : (k.closeSlot c).slot = k.slot + 1 := rfl
@[simp] theorem Walk.closeSlot_bound : (k.closeSlot c).bound = k.bound + bitUnits := rfl

/-- The byte shifted in from the votes of slots 1 to `n` (R164, R166). -/
def votedOut (c : Config) (level : Nat → Bool) (n : Nat) : Byte :=
  (List.range n).foldl (fun out j => shiftIn c out (vote (highIn level (bitUnits * (j + 1)) bitUnits))) 0

theorem votedOut_succ (c : Config) (level : Nat → Bool) (n : Nat) :
    votedOut c level (n + 1) =
      shiftIn c (votedOut c level n) (vote (highIn level (bitUnits * (n + 1)) bitUnits)) := by
  simp [votedOut, List.range_succ]

theorem decodeClosed_eq_votedOut (c : Config) (es : List Byte) : decodeClosed c es = votedOut c (levelAt es) 8 :=
  rfl

variable (c level) in
/-- The walk stands inside its slot, has counted the slot's units below its position and has voted on the
slots before it. -/
structure Walk.Reads (k : Walk) : Prop where
  slot_le : k.slot ≤ slots
  bound_eq : k.bound = bitUnits * k.slot + bitUnits
  start_le : bitUnits * k.slot ≤ k.pos
  pos_le : k.pos ≤ k.bound
  high_eq : k.high = highIn level (bitUnits * k.slot) (k.pos - bitUnits * k.slot)
  out_eq : k.out = votedOut c level (k.slot - 1)

theorem Walk.start_reads : Walk.start.Reads c level where
  slot_le := Nat.zero_le _
  bound_eq := rfl
  start_le := le_rfl
  pos_le := Nat.zero_le _
  high_eq := rfl
  out_eq := rfl

/-- The count carried on to `t` over a segment at the walk's level. -/
theorem Walk.Reads.high_to (h : k.Reads c level) {t : Nat} (ht : k.pos ≤ t)
    (hconst : ∀ u, k.pos ≤ u → u < t → level u = k.lvl) :
    (if k.lvl then k.high + (t - k.pos) else k.high) =
      highIn level (bitUnits * k.slot) (t - bitUnits * k.slot) := by
  have hstart := h.start_le
  have hsplit : t - bitUnits * k.slot = (k.pos - bitUnits * k.slot) + (t - k.pos) := by omega
  have hfrom : bitUnits * k.slot + (k.pos - bitUnits * k.slot) = k.pos := by omega
  have hseg : highIn level k.pos (t - k.pos) = if k.lvl then t - k.pos else 0 :=
    highIn_of_constant fun u hu hlt => hconst u hu (by omega)
  rw [hsplit, highIn_add, hfrom, ← h.high_eq, hseg]
  split <;> rfl

/-- A slot closed over a segment at the walk's level (R161). -/
theorem Walk.Reads.closeSlot (h : k.Reads c level) (hslot : k.slot < slots)
    (hconst : ∀ u, k.pos ≤ u → u < k.bound → level u = k.lvl) : (k.closeSlot c).Reads c level where
  slot_le := hslot
  bound_eq := by simp only [Walk.closeSlot_bound, Walk.closeSlot_slot, h.bound_eq, Nat.mul_succ]
  start_le := by simp only [Walk.closeSlot_pos, Walk.closeSlot_slot, h.bound_eq, Nat.mul_succ, le_refl]
  pos_le := Nat.le_add_right _ _
  high_eq := by
    have hempty : (k.closeSlot c).pos - bitUnits * (k.closeSlot c).slot = 0 := by
      simp only [Walk.closeSlot_pos, Walk.closeSlot_slot, h.bound_eq, Nat.mul_succ, Nat.sub_self]
    rw [hempty]
    rfl
  out_eq := by
    have hhigh := h.high_to h.pos_le hconst
    have hwidth : k.bound - bitUnits * k.slot = bitUnits := by rw [h.bound_eq, Nat.add_sub_cancel_left]
    rw [hwidth] at hhigh
    rw [Walk.closeSlot, hhigh, h.out_eq]
    cases k.slot with
    | zero => rfl
    | succ n => exact (votedOut_succ c level n).symm

/-- The part of a segment inside the slot (R161). -/
theorem Walk.Reads.partialSlot (h : k.Reads c level) {t : Nat} (hin : k.slot < slots → t < k.bound)
    (hconst : ∀ u, k.pos ≤ u → u < t → level u = k.lvl) :
    (k.partialSlot t).Reads c level ∧ (k.partialSlot t).lvl = k.lvl ∧ (k.partialSlot t).slot = k.slot ∧
      (k.slot < slots → (k.partialSlot t).pos = max k.pos t) := by
  unfold Walk.partialSlot
  split
  · next hpart =>
    obtain ⟨hslot, hlt⟩ := hpart
    refine ⟨?_, rfl, rfl, fun _ => (max_eq_right hlt.le).symm⟩
    exact
      { h with
        start_le := h.start_le.trans hlt.le
        pos_le := (hin hslot).le
        high_eq := h.high_to hlt.le hconst }
  · next hno => exact ⟨h, rfl, rfl, fun hslot => (max_eq_left (not_lt.1 fun hlt => hno ⟨hslot, hlt⟩)).symm⟩

/-- The inner loop closes every slot that ends within the segment, with fuel for all that are left (R161). -/
theorem Walk.Reads.closeSlots {t n : Nat} (h : k.Reads c level) (hfuel : slots ≤ k.slot + n)
    (hconst : ∀ u, k.pos ≤ u → u < t → level u = k.lvl) :
    (Walk.closeSlots c t n k).Reads c level ∧ (Walk.closeSlots c t n k).lvl = k.lvl ∧
      k.pos ≤ (Walk.closeSlots c t n k).pos ∧ max (Walk.closeSlots c t n k).pos t = max k.pos t ∧
      ((Walk.closeSlots c t n k).slot < slots → t < (Walk.closeSlots c t n k).bound) := by
  induction n generalizing k with
  | zero => exact ⟨h, rfl, le_rfl, rfl, fun hlt => absurd hlt (not_lt.2 hfuel)⟩
  | succ n ih =>
    rw [Walk.closeSlots]
    split
    · next hclose =>
      obtain ⟨hslot, hle⟩ := hclose
      have hnext := h.closeSlot hslot fun u hu hlt => hconst u hu (hlt.trans_le hle)
      obtain ⟨hreads, hlvl, hpos, hmax, hend⟩ :=
        ih hnext (by simp only [Walk.closeSlot_slot]; omega) fun u hu hlt => hconst u (h.pos_le.trans hu) hlt
      refine ⟨hreads, hlvl, h.pos_le.trans hpos, hmax.trans ?_, hend⟩
      rw [Walk.closeSlot_pos, max_eq_right hle, max_eq_right (h.pos_le.trans hle)]
    · next hno => exact ⟨h, rfl, le_rfl, rfl, fun hslot => not_le.1 fun hle => hno ⟨hslot, hle⟩⟩

/-- One turn of the outer loop reads the segment up to `t` and changes the level (R161). -/
theorem Walk.Reads.segment {t : Nat} (h : k.Reads c level)
    (hconst : ∀ u, k.pos ≤ u → u < t → level u = k.lvl) :
    (k.segment c t).Reads c level ∧ (k.segment c t).lvl = (!k.lvl) ∧
      ((k.segment c t).slot < slots → (k.segment c t).pos = max k.pos t) := by
  obtain ⟨hclosed, hlvl, hpos, hmax, hend⟩ :=
    h.closeSlots (t := t) (n := slots) (Nat.le_add_left _ _) hconst
  obtain ⟨hpart, hlvl', hslot', hpos'⟩ := hclosed.partialSlot hend fun u hu hlt =>
    (hconst u (hpos.trans hu) hlt).trans hlvl.symm
  refine ⟨{ hpart with }, ?_, fun hslot => ?_⟩
  · exact congrArg (!·) (hlvl'.trans hlvl)
  · exact (hpos' (hslot' ▸ hslot)).trans hmax

/-! ### The entries that are left say the level of the units ahead -/

variable (level) in
/-- From the walk's position on the level is the walk's, changed once for each entry that has been passed. -/
def Walk.Ahead (k : Walk) (es : List Byte) : Prop :=
  ∀ u, k.pos ≤ u → level u = (k.lvl ^^ ((runningMax k.pos es).countP (fun m => decide (m ≤ u)) % 2 == 1))

theorem Walk.start_ahead (es : List Byte) : Walk.start.Ahead (levelAt es) es := fun _ _ => (Bool.false_xor _).symm

theorem odd_succ (n : Nat) : ((n + 1) % 2 == 1) = !(n % 2 == 1) := by
  rcases Nat.mod_two_eq_zero_or_one n with h | h <;> simp [Nat.add_mod, h]

theorem le_of_mem_runningMax {es : List Byte} {m n : Nat} (h : n ∈ runningMax m es) : m ≤ n := by
  induction es generalizing m with
  | nil => simp [runningMax] at h
  | cons e es ih =>
    rcases List.mem_cons.1 h with rfl | h
    · exact le_max_left _ _
    · exact (le_max_left _ _).trans (ih h)

/-- No entry is passed before the first one. -/
theorem Walk.Ahead.level_before {e : Byte} {es : List Byte} (h : k.Ahead level (e :: es)) (u : Nat)
    (hpos : k.pos ≤ u) (hlt : u < e.toNat) : level u = k.lvl := by
  have hnone : (runningMax k.pos (e :: es)).countP (fun m => decide (m ≤ u)) = 0 := by
    refine List.countP_eq_zero.2 fun n hn => ?_
    have hle : e.toNat ≤ n := by
      rcases List.mem_cons.1 hn with rfl | hn
      · exact le_max_right _ _
      · exact (le_max_right _ _).trans (le_of_mem_runningMax hn)
    simpa using hlt.trans_le hle
  rw [h u hpos, hnone]
  simp

/-- Past the first entry the level has changed once more, and the running maximum is the new position. -/
theorem Walk.Ahead.next {k' : Walk} {e : Byte} {es : List Byte} (h : k.Ahead level (e :: es))
    (hlvl : k'.lvl = !k.lvl) (hpos : k'.pos = max k.pos e.toNat) : k'.Ahead level es := by
  intro u hu
  rw [hpos] at hu ⊢
  have hcount : (runningMax k.pos (e :: es)).countP (fun m => decide (m ≤ u)) =
      (runningMax (max k.pos e.toNat) es).countP (fun m => decide (m ≤ u)) + 1 :=
    List.countP_cons_of_pos (by simpa using hu)
  rw [h u ((le_max_left _ _).trans hu), hcount, odd_succ, hlvl]
  simp

/-! ### The whole walk -/

/-- Slot 9 is never closed: once the walk stands there its output is the closed form's. -/
theorem Walk.Reads.out_of_end (h : k.Reads c level) (hend : ¬k.slot < slots) : k.out = votedOut c level 8 := by
  rw [h.out_eq, le_antisymm h.slot_le (not_lt.1 hend)]
  rfl

/-- The sentinel lies past the last slot, so it closes every slot that is left (D42). -/
theorem Walk.Reads.out_of_sentinel (h : k.Reads c level) (hconst : ∀ u, k.pos ≤ u → level u = k.lvl) :
    (k.segment c sentinel).out = votedOut c level 8 := by
  obtain ⟨hreads, -, hpos⟩ := h.segment (t := sentinel) fun u hu _ => hconst u hu
  refine hreads.out_of_end fun hslot => ?_
  have hfar : sentinel ≤ (k.segment c sentinel).pos := hpos hslot ▸ le_max_right _ _
  have hnear := hreads.pos_le
  rw [hreads.bound_eq] at hnear
  simp only [slots, bitUnits, sentinel] at *
  omega

theorem Walk.run_out {es : List Byte} (h : k.Reads c level) (hahead : k.slot < slots → k.Ahead level es) :
    (Walk.run c es k).out = votedOut c level 8 := by
  induction es generalizing k with
  | nil =>
    rw [Walk.run]
    split
    · next hslot => exact h.out_of_sentinel fun u hu => by simpa [runningMax] using hahead hslot u hu
    · next hend => exact h.out_of_end hend
  | cons e es ih =>
    rw [Walk.run]
    split
    · next hslot =>
      obtain ⟨hreads, hlvl, hpos⟩ := h.segment (hahead hslot).level_before
      exact ih hreads fun hnext => (hahead hslot).next hlvl (hpos hnext)
    · next hend => exact h.out_of_end hend

end

/-- Settles O30: the walk reads the level that the closed form writes down, unit by unit. -/
theorem walkEqualsClosedForm : Obligations.WalkEqualsClosedForm := fun _ es =>
  Walk.run_out Walk.start_reads fun _ => Walk.start_ahead es

end Sys2Proof.Machine

/-! ## The tolerance of the vote -/

namespace Sys2Proof.Machine

/-! ### The entries of a jittered byte -/

/-- The line changes at the start of bit `j + 1` of the frame that carries `x`. -/
def bitChanges (c : Config) (x : Byte) (j : Nat) : Bool := frameBit c x (j + 1) != frameBit c x j

/-- Where the edge at the start of bit `j + 1` stands, in units from the start edge. -/
def edgeOffset (d : Nat → Int) (j : Nat) : Nat := ((bitUnits * (j + 1) : Nat) + d (j + 1) : Int).toNat

/-- Every displacement is at most 3 units. -/
def WithinThree (d : Nat → Int) : Prop := ∀ k, -3 ≤ d k ∧ d k ≤ 3

theorem jitteredEdges_eq (c : Config) (x : Byte) (d : Nat → Int) :
    jitteredEdges c x d =
      ((List.range 9).filter (bitChanges c x)).map fun j => (frameBit c x (j + 1), edgeOffset d j) := rfl

section
variable {d : Nat → Int} (hd : WithinThree d)
include hd

/-- The edge stands within 3 units of its place. -/
theorem edgeOffset_bounds (j : Nat) : 13 * j + 10 ≤ edgeOffset d j ∧ edgeOffset d j ≤ 13 * j + 16 := by
  obtain ⟨hlo, hhi⟩ := hd (j + 1)
  simp only [edgeOffset, bitUnits]
  omega

theorem toNat_edgeOffset {j : Nat} (hj : j < 9) : (BitVec.ofNat 8 (edgeOffset d j)).toNat = edgeOffset d j := by
  obtain ⟨-, hhi⟩ := edgeOffset_bounds hd j
  rw [BitVec.toNat_ofNat, Nat.mod_eq_of_lt (by omega)]

/-- The edges stand in the order of their bits. -/
theorem edgeOffset_lt {i j : Nat} (h : i < j) : edgeOffset d i < edgeOffset d j := by
  obtain ⟨-, hhi⟩ := edgeOffset_bounds hd i
  obtain ⟨hlo, -⟩ := edgeOffset_bounds hd j
  omega

/-- In the middle 7 units of slot `s` exactly the edges up to the start of bit `s` have passed. -/
theorem edgeOffset_le_iff {s j u : Nat} (hlo : 13 * s + 3 ≤ u) (hhi : u < 13 * s + 10) :
    edgeOffset d j ≤ u ↔ j < s := by
  obtain ⟨hmin, hmax⟩ := edgeOffset_bounds hd j
  constructor
  · intro h
    omega
  · intro h
    omega

end

/-- The entries of a byte's buffer: an edge at each change of the line, and the boundary. -/
def byteEntries (c : Config) (x : Byte) (d : Nat → Int) (boundary : Byte) : List Byte :=
  ((List.range 9).filter (bitChanges c x)).map (fun j => BitVec.ofNat 8 (edgeOffset d j)) ++ [boundary]

theorem byteEntries_eq (c : Config) (x : Byte) (d : Nat → Int) (boundary : Byte) :
    byteEntries c x d boundary = (jitteredEdges c x d).map (fun e => BitVec.ofNat 8 e.2) ++ [boundary] := by
  rw [byteEntries, jitteredEdges_eq, List.map_map]
  rfl

theorem byteEntries_sorted {c : Config} {x : Byte} {d : Nat → Int} {boundary : Byte} (hd : WithinThree d)
    (hb : 130 ≤ boundary.toNat) :
    (byteEntries c x d boundary).Pairwise fun e f => e.toNat ≤ f.toNat := by
  refine List.pairwise_append.2 ⟨?_, List.pairwise_singleton _ _, ?_⟩
  · refine List.pairwise_map.2 (List.Pairwise.imp_of_mem ?_ (List.Pairwise.filter _ List.pairwise_lt_range))
    intro i j hi hj hlt
    rw [toNat_edgeOffset hd (List.mem_range.1 (List.mem_filter.1 hi).1),
      toNat_edgeOffset hd (List.mem_range.1 (List.mem_filter.1 hj).1)]
    exact (edgeOffset_lt hd hlt).le
  · intro e he f hf
    obtain ⟨j, hj, rfl⟩ := List.mem_map.1 he
    obtain rfl := List.mem_singleton.1 hf
    have hj9 : j < 9 := List.mem_range.1 (List.mem_filter.1 hj).1
    obtain ⟨-, hhi⟩ := edgeOffset_bounds hd j
    rw [toNat_edgeOffset hd hj9]
    omega

/-! ### The level in the middle of a slot -/

/-- Entries in order are their own running maxima. -/
theorem runningMax_of_sorted {es : List Byte} {m : Nat} (hm : ∀ e ∈ es, m ≤ e.toNat)
    (hs : es.Pairwise fun e f => e.toNat ≤ f.toNat) : runningMax m es = es.map BitVec.toNat := by
  induction es generalizing m with
  | nil => rfl
  | cons e es ih =>
    obtain ⟨he, hs⟩ := List.pairwise_cons.1 hs
    rw [runningMax, max_eq_right (hm e List.mem_cons_self), ih he hs, List.map_cons]

theorem levelAt_of_sorted {es : List Byte} (hs : es.Pairwise fun e f => e.toNat ≤ f.toNat) (u : Nat) :
    levelAt es u = (es.countP (fun e => decide (e.toNat ≤ u)) % 2 == 1) := by
  rw [levelAt, runningMax_of_sorted (fun _ _ => Nat.zero_le _) hs, List.countP_map]
  rfl

theorem countP_range_below {n s : Nat} (h : s ≤ n) (p : Nat → Bool) :
    (List.range n).countP (fun j => decide (j < s) && p j) = (List.range s).countP p := by
  obtain ⟨k, rfl⟩ := Nat.exists_eq_add_of_le h
  have hbelow : (List.range s).countP (fun j => decide (j < s) && p j) = (List.range s).countP p :=
    List.countP_congr fun j hj => by simp [List.mem_range.1 hj]
  rw [List.range_add, List.countP_append, hbelow, List.countP_map]
  simp [Function.comp_def]

/-- The parity of the changes up to bit `s` is bit `s`, because the start bit is low. -/
theorem odd_bitChanges (c : Config) (x : Byte) (s : Nat) :
    ((List.range s).countP (bitChanges c x) % 2 == 1) = frameBit c x s := by
  induction s with
  | zero => rfl
  | succ s ih =>
    rw [List.range_succ, List.countP_append, List.countP_singleton]
    cases hc : bitChanges c x s with
    | true =>
      rw [if_pos rfl, odd_succ, ih]
      exact Bool.not_eq.2 (bne_iff_ne.1 hc).symm
    | false =>
      rw [if_neg Bool.false_ne_true, Nat.add_zero, ih]
      exact (bne_eq_false_iff_eq.1 hc).symm

theorem levelAt_byteEntries {c : Config} {x : Byte} {d : Nat → Int} {boundary : Byte} (hd : WithinThree d)
    (hb : 130 ≤ boundary.toNat) {s u : Nat} (hs : s < 9) (hlo : 13 * s + 3 ≤ u) (hhi : u < 13 * s + 10) :
    levelAt (byteEntries c x d boundary) u = frameBit c x s := by
  have hboundary : ¬boundary.toNat ≤ u := by omega
  have hpassed : (byteEntries c x d boundary).countP (fun e => decide (e.toNat ≤ u)) =
      (List.range s).countP (bitChanges c x) := by
    rw [byteEntries, List.countP_append, List.countP_map, List.countP_filter, List.countP_singleton]
    simp only [hboundary, decide_false, Bool.false_eq_true, if_false, Nat.add_zero]
    rw [← countP_range_below hs.le]
    refine List.countP_congr fun j hj => ?_
    rw [Function.comp_apply, toNat_edgeOffset hd (List.mem_range.1 hj)]
    simp only [edgeOffset_le_iff hd hlo hhi]
  rw [levelAt_of_sorted (byteEntries_sorted hd hb), hpassed, odd_bitChanges]

/-! ### The vote of a slot -/

theorem highIn_le (level : Nat → Bool) (a n : Nat) : highIn level a n ≤ n :=
  List.countP_le_length.trans_eq List.length_range

/-- The middle 7 of a slot's 13 units decide its vote. -/
theorem vote_highIn {level : Nat → Bool} {s : Nat} {v : Bool}
    (h : ∀ u, 13 * s + 3 ≤ u → u < 13 * s + 10 → level u = v) :
    vote (highIn level (bitUnits * s) bitUnits) = v := by
  have hmiddle : highIn level (13 * s + 3) 7 = if v then 7 else 0 := highIn_of_constant h
  have hsplit : highIn level (13 * s) 13 =
      highIn level (13 * s) 3 + highIn level (13 * s + 3) 7 + highIn level (13 * s + 10) 3 := by
    rw [highIn_add level (13 * s) 10 3, highIn_add level (13 * s) 3 7]
  have hbefore := highIn_le level (13 * s) 3
  have hafter := highIn_le level (13 * s + 10) 3
  have hvote : vote (highIn level (bitUnits * s) bitUnits) = decide (7 ≤ highIn level (13 * s) 13) := rfl
  rw [hvote, hsplit, hmiddle]
  cases v <;> simp <;> omega

/-- A byte whose edges stand within 3 units of their places is decoded (R169). -/
theorem decodeBuffer_byteEntries {x boundary : Byte} (c : Config) {d : Nat → Int} (hd : WithinThree d)
    (hb : 130 ≤ boundary.toNat) : decodeBuffer c (byteEntries c x d boundary) = x := by
  have hvotes : votedOut c (levelAt (byteEntries c x d boundary)) 8 =
      (List.range 8).foldl (fun out j => shiftIn c out (dataBit c x j)) 0 := by
    refine List.foldl_ext _ _ _ fun out j hj => ?_
    have hj8 : j < 8 := List.mem_range.1 hj
    have hbit : frameBit c x (j + 1) = dataBit c x j := by simp [frameBit, hj8.ne]
    rw [vote_highIn fun u hlo hhi => levelAt_byteEntries hd hb (by omega) hlo hhi, hbit]
  rw [walkEqualsClosedForm, decodeClosed_eq_votedOut, hvotes, sentBitsShiftIntoTheByte]

/-- The displacements by which the first bit after the start bit loses 8 units: 4 at its start, 4 at its end. -/
def narrowed (k : Nat) : Int := if k = 1 then 4 else -4

/-- Settles O31: within 3 units the middle 7 units of a slot are the bit's own; within 4 a bit can keep only 5. -/
theorem voteToleratesThreeUnits : Obligations.VoteToleratesThreeUnits := by
  refine ⟨fun c x boundary d hd hb => ?_, 0x01, 130, narrowed, fun k => ?_, by decide, by decide⟩
  · rw [← byteEntries_eq]
    exact decodeBuffer_byteEntries c hd hb
  · unfold narrowed
    split <;> decide

end Sys2Proof.Machine

/-! ## A byte on the wire -/

namespace Sys2Proof.Machine

/-! ### Edges at an offset in units -/

/-- The timestamp `o` units after `t0` (R101, R265). -/
def offsetStamp (c : Config) (t0 : Stamp) (o : Nat) : Stamp :=
  BitVec.ofNat 24 ((t0.toNat + (o <<< c.clockShift)) % 2 ^ c.width)

theorem offsetEdge_eq (c : Config) (t0 : Stamp) (e : Bool × Nat) :
    offsetEdge c t0 e = .edge e.1 (offsetStamp c t0 e.2) := rfl

/-- A parameter setting in which units up to 255 are measured (R7, R265). -/
structure Measures (c : Config) : Prop where
  wf : c.wf = true
  clamp : clampBeforeAlias c = true

/-- A timestamp below 2^W is captured as it is (R100). -/
theorem sampleNow_of_lt {c : Config} {ts : Stamp} (h : ts.toNat < 2 ^ c.width) : sampleNow c ts = ts := by
  rw [sampleNow, Nat.mod_eq_of_lt h, BitVec.ofNat_toNat, BitVec.setWidth_eq]

section
variable {c : Config} (hc : Measures c)
include hc

theorem Measures.shift_lt {o : Nat} (ho : o ≤ 255) : o <<< c.clockShift < 2 ^ c.width := by
  have hclamp : 255 <<< c.clockShift < 2 ^ c.width := of_decide_eq_true hc.clamp
  rw [Nat.shiftLeft_eq] at hclamp ⊢
  exact (Nat.mul_le_mul_right _ ho).trans_lt hclamp

theorem Measures.toNat_offsetStamp (t0 : Stamp) (o : Nat) :
    (offsetStamp c t0 o).toNat = (t0.toNat + (o <<< c.clockShift)) % 2 ^ c.width :=
  toNat_stamp_mod hc.wf _

theorem Measures.offsetStamp_lt (t0 : Stamp) (o : Nat) : (offsetStamp c t0 o).toNat < 2 ^ c.width := by
  rw [hc.toNat_offsetStamp]
  exact Nat.mod_lt _ (Nat.two_pow_pos _)

theorem Measures.sampleNow_offsetStamp (t0 : Stamp) (o : Nat) :
    sampleNow c (offsetStamp c t0 o) = offsetStamp c t0 o :=
  sampleNow_of_lt (hc.offsetStamp_lt t0 o)

/-- An edge measures its offset, in units (R101). -/
theorem Measures.interval_offsetStamp {t0 : Stamp} (ht : t0.toNat < 2 ^ c.width) {o : Nat} (ho : o ≤ 255) :
    interval c t0 (sampleNow c (offsetStamp c t0 o)) = BitVec.ofNat 8 o := by
  refine BitVec.eq_of_toNat_eq ?_
  have hgap := intervalMeasuresTheGap c t0 _ hc.wf ht (hc.shift_lt ho)
  rw [hc.sampleNow_offsetStamp, BitVec.toNat_ofNat, Nat.mod_eq_of_lt (by omega)]
  refine hgap.trans ?_
  rw [Nat.shiftLeft_eq, Nat.mul_div_cancel _ (Nat.two_pow_pos _), min_eq_right ho]

end

/-! ### The gatherer at a byte's start edge -/

/-- In an armed frame at a byte's start edge, with nothing gathered and no decode pending. -/
structure State.AtByteStart (s : State) : Prop where
  measures : Measures s.cfg
  time0_lt : s.time0.toNat < 2 ^ s.cfg.width
  unfaulted : s.fault = false
  armed : s.rxArmed = true
  gathering : s.rxs = .gathering
  unrequested : s.decodePending = false
  empty : s.count s.active = 0

section
variable (s : State) (iv : Byte)

@[simp] theorem State.stored_cfg : (s.stored iv).cfg = s.cfg := rfl
@[simp] theorem State.stored_rxArmed : (s.stored iv).rxArmed = s.rxArmed := rfl
@[simp] theorem State.stored_rxs : (s.stored iv).rxs = s.rxs := rfl
@[simp] theorem State.stored_time0 : (s.stored iv).time0 = s.time0 := rfl
@[simp] theorem State.stored_active : (s.stored iv).active = s.active := rfl
@[simp] theorem State.stored_decodePending : (s.stored iv).decodePending = s.decodePending := rfl
@[simp] theorem State.stored_fault : (s.stored iv).fault = s.fault := rfl
@[simp] theorem State.stored_up : (s.stored iv).up = s.up := rfl

end

/-- From `s` on exactly the intervals `ivs` have been gathered, all into the active buffer. -/
structure State.Gathered (s : State) (ivs : List Byte) (t : State) : Prop where
  cfg : t.cfg = s.cfg
  rxArmed : t.rxArmed = s.rxArmed
  rxs : t.rxs = s.rxs
  time0 : t.time0 = s.time0
  active : t.active = s.active
  decodePending : t.decodePending = s.decodePending
  endSeen : t.endSeen = s.endSeen
  fault : t.fault = s.fault
  up : t.up = s.up
  count : (t.count t.active).toNat = ivs.length
  entries : logEntries t.log t.active ivs.length = some ivs

theorem State.AtByteStart.gathered_nil {s : State} (h : s.AtByteStart) : s.Gathered [] s :=
  ⟨rfl, rfl, rfl, rfl, rfl, rfl, rfl, rfl, rfl, by simp [h.empty], rfl⟩

/-- An entry stored behind those of a buffer. -/
theorem State.logEntries_stored {s : State} {ivs : List Byte} (hcount : (s.count s.active).toNat = ivs.length)
    (h : logEntries s.log s.active ivs.length = some ivs) (hlt : ivs.length < edgeCap) (iv : Byte) :
    logEntries (s.stored iv).log s.active (ivs ++ [iv]).length = some (ivs ++ [iv]) := by
  obtain ⟨-, hivs⟩ := logEntries_eq_some_iff.1 h
  rw [← hcount] at hlt
  have hread : ∀ i < edgeCap, (s.stored iv).log.readCell (logAddr s.active i) =
      if s.active = s.active ∧ i = (s.count s.active).toNat then iv else s.log.readCell (logAddr s.active i) :=
    fun i hi => State.entry_stored hlt iv s.active hi
  refine logEntries_eq_some_iff.2 ⟨?_, ?_⟩
  · rw [List.length_append, ← hcount]
    exact hlt
  · rw [List.length_append, List.length_singleton, List.range_succ, List.map_append, List.map_singleton,
      hread ivs.length (hcount ▸ hlt), if_pos ⟨rfl, hcount.symm⟩]
    congr 1
    refine hivs.trans (List.map_congr_left fun i hi => ?_)
    have hne : i ≠ (s.count s.active).toNat := by
      rw [hcount]
      exact (List.mem_range.1 hi).ne
    rw [hread i ((List.mem_range.1 hi).trans (hcount ▸ hlt)), if_neg fun e => hne e.2]

theorem State.Gathered.store {s t : State} {ivs : List Byte} (h : s.Gathered ivs t) (hlt : ivs.length < edgeCap)
    (iv : Byte) : s.Gathered (ivs ++ [iv]) (t.stored iv) where
  cfg := by simp [h.cfg]
  rxArmed := by simp [h.rxArmed]
  rxs := by simp [h.rxs]
  time0 := by simp [h.time0]
  active := by simp [h.active]
  decodePending := by simp [h.decodePending]
  endSeen := by simp [h.endSeen]
  fault := by simp [h.fault]
  up := by simp [h.up]
  count := by
    rw [List.length_append, ← h.count]
    exact State.toNat_count_stored (h.count ▸ hlt) iv
  entries := State.logEntries_stored h.count h.entries hlt iv

section
variable {s t : State} {ivs : List Byte}

/-- Gathering goes on. -/
theorem State.Gathered.listens (h : s.Gathered ivs t) (hs : s.AtByteStart) :
    t.fault = false ∧ t.rxArmed = true ∧ t.rxs = .gathering :=
  ⟨h.fault.trans hs.unfaulted, h.rxArmed.trans hs.armed, h.rxs.trans hs.gathering⟩

/-- The next entry is the interval from the start edge: gathering re-latches nothing (R104). -/
theorem State.Gathered.intervalAt (h : s.Gathered ivs t) (hs : s.AtByteStart) {o : Nat} (ho : o ≤ 255) :
    t.intervalAt (offsetStamp s.cfg s.time0 o) = BitVec.ofNat 8 o := by
  rw [State.intervalAt, h.cfg, h.time0]
  exact hs.measures.interval_offsetStamp hs.time0_lt ho

/-- No condition ends the frame at an edge below 130 units, or at a boundary up to 188 (R140). -/
theorem State.Gathered.gatherEnd_eq_none (h : s.Gathered ivs t) (hs : s.AtByteStart) (hseen : s.endSeen = false)
    (hlen : ivs.length < edgeCap) {l : Bool} {o : Nat} (ho : o < 130 ∨ l = false ∧ o ≤ 188) :
    gatherEnd l (t.intervalAt (offsetStamp s.cfg s.time0 o)) t = none := by
  have hiv : (t.intervalAt (offsetStamp s.cfg s.time0 o)).toNat = o := by
    rw [h.intervalAt hs (by omega), BitVec.toNat_ofNat, Nat.mod_eq_of_lt (by omega)]
  have hcount := h.count
  refine gatherEnd_eq_none_iff.2 ⟨tooLong_eq_false_iff.2 (by omega), wrongPolarity_eq_false_iff.2 ?_,
    h.endSeen.trans hseen, fun _ => h.decodePending.trans hs.unrequested, by omega⟩
  rw [hiv]
  exact ho.imp_right And.left

/-- An edge below 130 units of either level is stored as its offset (R142). -/
theorem State.Gathered.ordinary (h : s.Gathered ivs t) (hs : s.AtByteStart) (hseen : s.endSeen = false)
    (hlen : ivs.length < edgeCap) (l : Bool) {o : Nat} (ho : o < 130) :
    exec (.edge l (offsetStamp s.cfg s.time0 o)) t = .next (t.stored (BitVec.ofNat 8 o)) := by
  have hend := h.gatherEnd_eq_none hs hseen hlen (l := l) (.inl ho)
  have hiv := h.intervalAt hs (o := o) (by omega)
  have hord : isBoundary l (BitVec.ofNat 8 o) = false :=
    isBoundary_eq_false_of_lt (by rw [BitVec.toNat_ofNat, Nat.mod_eq_of_lt (by omega)]; exact ho)
  have hlt : (t.count t.active).toNat < edgeCap := h.count ▸ hlen
  obtain ⟨hf, ha, hg⟩ := h.listens hs
  refine (execEdge_of_gathered hf ha hg hend hlt).trans ?_
  rw [hiv, hord]
  rfl

/-- A falling edge at 130..188 units is stored as its offset and hands the buffer over (R143). -/
theorem State.Gathered.boundary (h : s.Gathered ivs t) (hs : s.AtByteStart) (hseen : s.endSeen = false)
    (hlen : ivs.length < edgeCap) {o : Nat} (hmin : 130 ≤ o) (hmax : o ≤ 188) :
    exec (.edge false (offsetStamp s.cfg s.time0 o)) t =
      .next ((t.stored (BitVec.ofNat 8 o)).handoff (offsetStamp s.cfg s.time0 o)) := by
  have hend := h.gatherEnd_eq_none hs hseen hlen (l := false) (.inr ⟨rfl, hmax⟩)
  have hiv := h.intervalAt hs (o := o) (by omega)
  have hbound : isBoundary false (BitVec.ofNat 8 o) = true :=
    isBoundary_eq_true_iff.2 ⟨rfl, by rw [BitVec.toNat_ofNat, Nat.mod_eq_of_lt (by omega)]; exact hmin⟩
  have hlt : (t.count t.active).toNat < edgeCap := h.count ▸ hlen
  obtain ⟨hf, ha, hg⟩ := h.listens hs
  refine (execEdge_of_gathered hf ha hg hend hlt).trans ?_
  rw [hiv, hbound, h.cfg, hs.measures.sampleNow_offsetStamp]
  rfl

/-- The edges inside a byte are gathered one after the other. -/
theorem State.AtByteStart.gather (hs : s.AtByteStart) (hseen : s.endSeen = false) {es : List (Bool × Nat)}
    (hord : ∀ e ∈ es, e.2 < 130) (hlen : es.length ≤ edgeCap) :
    ∃ t, runEvents (es.map (offsetEdge s.cfg s.time0)) s = .next t ∧
      s.Gathered (es.map fun e => BitVec.ofNat 8 e.2) t := by
  induction es using List.reverseRecOn with
  | nil => exact ⟨s, rfl, hs.gathered_nil⟩
  | append_singleton es e ih =>
    rw [List.length_append, List.length_singleton] at hlen
    obtain ⟨t, hrun, ht⟩ := ih (fun f hf => hord f (List.mem_append_left _ hf)) (by omega)
    have hroom : (es.map fun e => BitVec.ofNat 8 e.2).length < edgeCap := by
      rw [List.length_map]
      omega
    have hedge := ht.ordinary hs hseen hroom e.1 (hord e (List.mem_append_right _ List.mem_cons_self))
    refine ⟨t.stored (BitVec.ofNat 8 e.2), ?_, ?_⟩
    · rw [List.map_append, runEvents_append_of_next hrun]
      exact runEvents_cons_of_next hedge
    · rw [List.map_append]
      exact ht.store hroom _

end

/-! ### The byte's boundary and its DECODE -/

/-- DECODER reads the buffer that was handed over (R53, R151). -/
theorem State.completedEntries_handoff (s : State) (now : Stamp) :
    (s.handoff now).completedEntries = logEntries s.log s.active (s.count s.active).toNat := by
  rw [State.completedEntries, State.completed_handoff, State.count_completed_handoff]
  rfl

theorem endSeenNext_false (c : Config) (x : Byte) : endSeenNext c x false = decide (c.endMarker = some x) := by
  simp [endSeenNext]

/-- The byte `x` of the frame has been delivered, and the gatherer is at the next byte's start edge. -/
structure State.Delivered (s : State) (x : Byte) (boundary : Nat) (t : State) : Prop where
  atStart : t.AtByteStart
  cfg : t.cfg = s.cfg
  up : t.up = s.up ++ [.data x]
  lastByte : t.lastByte = x
  endSeen : t.endSeen = decide (s.cfg.endMarker = some x)
  active : t.active = s.completed
  time0 : t.time0 = offsetStamp s.cfg s.time0 boundary

/-- The state after a byte's boundary and the commit of `x` (R151, R168). -/
theorem State.Gathered.delivered {s t : State} {ivs : List Byte} (h : s.Gathered ivs t) (hs : s.AtByteStart)
    (hseen : s.endSeen = false) (iv x : Byte) (o : Nat) :
    s.Delivered x o (((t.stored iv).handoff (offsetStamp s.cfg s.time0 o)).commit x) where
  atStart :=
    { measures := by simpa [h.cfg] using hs.measures
      time0_lt := by simpa [h.cfg] using hs.measures.offsetStamp_lt s.time0 o
      unfaulted := by simp [h.fault, hs.unfaulted]
      armed := by simp [h.rxArmed, hs.armed]
      gathering := by simp [h.rxs, hs.gathering]
      unrequested := by simp
      empty := State.count_active_handoff (t.stored iv) (offsetStamp s.cfg s.time0 o) }
  cfg := by simp [h.cfg]
  up := by simp [h.up]
  lastByte := by simp
  endSeen := by simp [h.cfg, h.endSeen, hseen, endSeenNext_false]
  active := by simp [h.active, State.completed]
  time0 := by simp

/-- The boundary after a byte's edges and the DECODE after it deliver what DECODER makes of them (R143, R160). -/
theorem State.Gathered.deliver {s t : State} {ivs : List Byte} (h : s.Gathered ivs t) (hs : s.AtByteStart)
    (hseen : s.endSeen = false) (hlen : ivs.length < edgeCap) {o : Nat} (hmin : 130 ≤ o) (hmax : o ≤ 188) :
    ∃ u, runEvents [.edge false (offsetStamp s.cfg s.time0 o), .decode] t = .next u ∧
      s.Delivered (decodeBuffer s.cfg (ivs ++ [BitVec.ofNat 8 o])) o u := by
  have hedge := h.boundary hs hseen hlen hmin hmax
  have hstored := h.store hlen (BitVec.ofNat 8 o)
  have hentries : ((t.stored (BitVec.ofNat 8 o)).handoff (offsetStamp s.cfg s.time0 o)).completedEntries =
      some (ivs ++ [BitVec.ofNat 8 o]) := by
    rw [State.completedEntries_handoff, hstored.count]
    exact hstored.entries
  obtain ⟨hf, -, -⟩ := h.listens hs
  have hdecode := execDecode_of_entries (s := (t.stored (BitVec.ofNat 8 o)).handoff _) hf rfl hentries
  rw [State.handoff_cfg, State.stored_cfg, h.cfg] at hdecode
  exact ⟨_, (runEvents_cons_of_next hedge).trans (runEvents_cons_of_next hdecode), h.delivered hs hseen _ _ o⟩

theorem jitteredEdges_offset_lt {c : Config} {x : Byte} {d : Nat → Int} (hd : WithinThree d) {e : Bool × Nat}
    (he : e ∈ jitteredEdges c x d) : e.2 < 130 := by
  rw [jitteredEdges_eq] at he
  obtain ⟨j, hj, rfl⟩ := List.mem_map.1 he
  have hj9 : j < 9 := List.mem_range.1 (List.mem_filter.1 hj).1
  obtain ⟨-, hhi⟩ := edgeOffset_bounds hd j
  change edgeOffset d j < 130
  omega

theorem length_jitteredEdges_le (c : Config) (x : Byte) (d : Nat → Int) : (jitteredEdges c x d).length ≤ 9 := by
  rw [jitteredEdges_eq, List.length_map]
  exact (List.length_filter_le _ _).trans_eq List.length_range

/-- A byte whose edges stand within 3 units of their places is delivered at its boundary. -/
theorem State.AtByteStart.receive {s : State} (hs : s.AtByteStart) (hseen : s.endSeen = false) (x : Byte)
    {d : Nat → Int} (hd : WithinThree d) {boundary : Nat} (hmin : 130 ≤ boundary) (hmax : boundary ≤ 188) :
    ∃ u, runEvents
        ((jitteredEdges s.cfg x d ++ [(false, boundary)]).map (offsetEdge s.cfg s.time0) ++ [.decode]) s = .next u ∧
      s.Delivered x boundary u := by
  have hlen := length_jitteredEdges_le s.cfg x d
  obtain ⟨t, hrun, ht⟩ := hs.gather hseen (fun _ he => jitteredEdges_offset_lt hd he) (hlen.trans (by decide))
  have hroom : ((jitteredEdges s.cfg x d).map fun e => BitVec.ofNat 8 e.2).length < edgeCap := by
    rw [List.length_map]
    exact hlen.trans_lt (by decide)
  obtain ⟨u, hdeliver, hu⟩ := ht.deliver hs hseen hroom hmin hmax
  have hb : 130 ≤ (BitVec.ofNat 8 boundary).toNat := by
    rw [BitVec.toNat_ofNat, Nat.mod_eq_of_lt (by omega)]
    exact hmin
  rw [← byteEntries_eq, decodeBuffer_byteEntries s.cfg hd hb] at hu
  refine ⟨u, ?_, hu⟩
  rw [List.map_append, List.append_assoc, runEvents_append_of_next hrun]
  exact hdeliver

/-- Settles O33: the byte's edges fill the buffer, the boundary hands it over, and DECODER tolerates 3 units. -/
theorem byteOnTheWireIsReceived : Obligations.ByteOnTheWireIsReceived := by
  intro s x d boundary hwf hclamp htime hf ha hg hseen hpend hempty hd hmin hmax
  have hs : s.AtByteStart := ⟨⟨hwf, hclamp⟩, htime, hf, ha, hg, hpend, hempty⟩
  obtain ⟨t, hrun, ht⟩ := hs.receive hseen x hd hmin hmax
  refine ⟨t, hrun, ht.up, ht.lastByte, ht.atStart.gathering, ht.atStart.armed, ht.endSeen, ht.atStart.unrequested,
    ht.active, ht.atStart.empty, ?_⟩
  rw [ht.time0, hs.measures.toNat_offsetStamp, Nat.shiftLeft_eq]

end Sys2Proof.Machine

/-! ## The shape of a transmission -/

namespace Sys2Proof.Machine

/-! ### Runs of ticks -/

/-- What the host still holds after a tick at `s`: a fetch tick takes the first byte (R271). -/
def heldAfter (s : State) (msg : List Byte) : List Byte := if isFetchTick s then msg.tail else msg

theorem runTicks_succ_of_next {n : Nat} {msg : List Byte} {s t : State}
    (h : exec (.txTick (hostAnswer s msg)) s = .next t) :
    runTicks (n + 1) msg s = (runTicks n (heldAfter s msg) t).map fun r => (t.txPin :: r.1, r.2) := by
  simp [runTicks, h, heldAfter]

/-- Ticks that complete are followed by further ticks. -/
theorem runTicks_add {n m : Nat} {msg msg' msg'' : List Byte} {s t u : State} {ls ls' : List Bool}
    (h : runTicks n msg s = some (ls, msg', t)) (h' : runTicks m msg' t = some (ls', msg'', u)) :
    runTicks (n + m) msg s = some (ls ++ ls', msg'', u) := by
  induction n generalizing msg s ls with
  | zero =>
    cases h
    rwa [Nat.zero_add]
  | succ n ih =>
    rw [runTicks] at h
    split at h
    · next v hv =>
      obtain ⟨⟨ls, held, w⟩, hr, heq⟩ := Option.map_eq_some_iff.1 h
      cases heq
      rw [Nat.add_right_comm, runTicks_succ_of_next hv, heldAfter, ih hr]
      rfl
    · cases h

/-! ### The ticks of one frame -/

/-- Transmit is armed and no bit is left, so the next tick loads a byte or finishes. -/
structure State.ByteDue (s : State) : Prop where
  unfaulted : s.fault = false
  armed : s.txArmed = true
  empty : s.txBitsLeft = 0

theorem isFetchTick_midFrame {s : State} (h : s.txBitsLeft ≠ 0) : isFetchTick s = false := by
  rw [isFetchTick, decide_eq_false h, Bool.and_false, Bool.false_and]

/-- The bits of the frame in `s` have been driven up to `t`, in the same phase. -/
structure State.FrameDriven (s t : State) : Prop where
  cfg : t.cfg = s.cfg
  fault : t.fault = s.fault
  txArmed : t.txArmed = s.txArmed
  txs : t.txs = s.txs
  txRep : t.txRep = s.txRep
  up : t.up = s.up
  empty : t.txBitsLeft = 0

/-- The bits that are left are driven one by one, and the answers are not asked for (R186). -/
theorem runTicks_midFrame {n : Nat} {s : State} (hf : s.fault = false) (ha : s.txArmed = true)
    (hd : s.txs ≠ .done) (hbits : s.txBitsLeft.toNat = n) (hn : n ≤ 10) (msg : List Byte) :
    ∃ t, runTicks n msg s = some ((List.range n).map fun i => frameBit s.cfg s.txCur (10 - n + i), msg, t) ∧
      s.FrameDriven t := by
  induction n generalizing s with
  | zero => exact ⟨s, rfl, rfl, rfl, rfl, rfl, rfl, rfl, BitVec.eq_of_toNat_eq hbits⟩
  | succ n ih =>
    have hne : s.txBitsLeft ≠ 0 := by
      intro h
      simp [h] at hbits
    have htick := (execTxTick_midFrame (a := hostAnswer s msg) hf ha hd hne).trans (driveBit_of_le (hbits ▸ hn))
    have hleft : (s.txBitsLeft - 1).toNat = n := by bv_omega
    obtain ⟨t, hrun, ht⟩ := ih (s := { s with
      txPin := frameBit s.cfg s.txCur (10 - s.txBitsLeft.toNat), txBitsLeft := s.txBitsLeft - 1 })
      hf ha hd hleft (by omega)
    refine ⟨t, ?_, ht.cfg, ht.fault, ht.txArmed, ht.txs, ht.txRep, ht.up, ht.empty⟩
    rw [runTicks_succ_of_next htick, heldAfter, isFetchTick_midFrame hne, if_neg Bool.false_ne_true, hrun,
      List.range_succ_eq_map, hbits]
    have hindex : ∀ i, 10 - n + i = 10 - (n + 1) + (i + 1) := fun i => by omega
    simp [Function.comp_def, hindex]

theorem frameBits_eq_cons (c : Config) (x : Byte) :
    frameBits c x = false :: (List.range 9).map fun i => frameBit c x (10 - 9 + i) := rfl

/-- Ten ticks drive the frame of the byte that LoadNext loads (R182, R186). -/
theorem State.ByteDue.runTicks_frame {s u : State} (h : s.ByteDue) (hd : s.txs ≠ .done) {msg : List Byte}
    (hload : loadNext (hostAnswer s msg) s = u) (hu : u.txs ≠ .done) (hf : u.fault = false)
    (ha : u.txArmed = true) :
    ∃ t, runTicks 10 msg s = some (frameBits u.cfg u.txCur, heldAfter s msg, t) ∧ u.FrameDriven t := by
  have htick := execTxTick_of_loaded h.unfaulted h.armed h.empty hd hload hu
  obtain ⟨t, hrun, ht⟩ := runTicks_midFrame (n := 9) (s := { u with txBitsLeft := 9, txPin := false })
    hf ha hu rfl (by decide) (heldAfter s msg)
  refine ⟨t, ?_, ht.cfg, ht.fault, ht.txArmed, ht.txs, ht.txRep, ht.up, ht.empty⟩
  rw [runTicks_succ_of_next htick, hrun, frameBits_eq_cons]
  rfl

/-! ### The ticks of several frames -/

/-- From `s` to `t` the frames of `bytes` are driven and nothing is emitted, while the host goes from `msg` to
`msg'`. -/
structure State.Sends (s : State) (msg bytes msg' : List Byte) (t : State) : Prop where
  ticks : runTicks (10 * bytes.length) msg s = some (bitStream s.cfg bytes, msg', t)
  due : t.ByteDue
  cfg : t.cfg = s.cfg
  up : t.up = s.up

theorem State.ByteDue.sends_nil {s : State} (h : s.ByteDue) (msg : List Byte) : s.Sends msg [] msg s :=
  ⟨rfl, h, rfl, rfl⟩

theorem State.Sends.trans {s t u : State} {msg msg' msg'' bytes bytes' : List Byte}
    (h : s.Sends msg bytes msg' t) (h' : t.Sends msg' bytes' msg'' u) :
    s.Sends msg (bytes ++ bytes') msg'' u where
  ticks := by
    rw [List.length_append, Nat.mul_add, bitStream, List.flatMap_append]
    exact runTicks_add h.ticks (h.cfg ▸ h'.ticks)
  due := h'.due
  cfg := h'.cfg.trans h.cfg
  up := h'.up.trans h.up

section
variable {s : State} (h : s.ByteDue)
include h

/-- One byte is sent, and the phase and the count are those that LoadNext leaves. -/
theorem State.ByteDue.sends_loaded (hd : s.txs ≠ .done) {msg : List Byte} {u : State} {x : Byte}
    (hload : loadNext (hostAnswer s msg) s = u) (hu : u.txs ≠ .done) (hcur : u.txCur = x) :
    ∃ t, s.Sends msg [x] (heldAfter s msg) t ∧ t.txs = u.txs ∧ t.txRep = u.txRep := by
  have hframe := loadNext_eq (hostAnswer s msg) s
  rw [hload] at hframe
  have hcfg : u.cfg = s.cfg := by rw [hframe]
  have hfault : u.fault = false := by rw [hframe]; exact h.unfaulted
  have harmed : u.txArmed = true := by rw [hframe]; exact h.armed
  have hup : u.up = s.up := by rw [hframe]
  obtain ⟨t, hrun, ht⟩ := h.runTicks_frame hd hload hu hfault harmed
  rw [hcfg, hcur] at hrun
  refine ⟨t, ⟨?_, ⟨ht.fault.trans hfault, ht.txArmed.trans harmed, ht.empty⟩, ht.cfg.trans hcfg,
    ht.up.trans hup⟩, ht.txs, ht.txRep⟩
  simpa [bitStream] using hrun

/-- Where no Message byte is due the host keeps what it holds (R271). -/
theorem State.ByteDue.heldAfter_eq (hmsg : s.txs ≠ .message) (hsync : s.txs = .sync → s.txRep.toNat < 2)
    (msg : List Byte) : heldAfter s msg = msg := by
  rw [heldAfter, (isFetchTick_eq_false_iff h.unfaulted h.armed h.empty).2 ⟨hmsg, hsync⟩]
  rfl

theorem State.ByteDue.isFetchTick_of_answerDue (hdue : s.AnswerDue) : isFetchTick s = true := by
  rw [← Bool.not_eq_false, isFetchTick_eq_false_iff h.unfaulted h.armed h.empty]
  rintro ⟨hmsg, hsync⟩
  rcases hdue with ⟨hp, hle⟩ | hp
  · exact absurd (hsync hp) (not_lt.2 hle)
  · exact hmsg hp

end

/-! ### The phases of a transmission -/

/-- Counting one more of at most 255 bytes does not wrap. -/
theorem toNat_succ_of_lt {r n : Byte} {k : Nat} (hr : r.toNat = k) (h : k < n.toNat) : (r + 1).toNat = k + 1 := by
  bv_omega

/-- `k` preamble bytes have been sent. -/
def State.PreambleSent (k : Nat) (s : State) : Prop :=
  k = 0 ∧ s.txs = .idle ∨ s.txs = .preamble ∧ s.txRep.toNat = k

theorem State.PreambleSent.syncDue {s : State} (h : s.PreambleSent s.cfg.preambleCount.toNat) : s.SyncDue := by
  rcases h with ⟨hzero, hp⟩ | ⟨hp, hr⟩
  · exact .inl ⟨hp, BitVec.eq_of_toNat_eq hzero⟩
  · exact .inr ⟨hp, hr.ge⟩

theorem State.PreambleSent.next {k : Nat} {s : State} (h : s.PreambleSent k) (hs : s.ByteDue)
    (hlt : k < s.cfg.preambleCount.toNat) (msg : List Byte) :
    ∃ t, s.Sends msg [trainingByte] msg t ∧ t.PreambleSent (k + 1) := by
  rcases h with ⟨rfl, hp⟩ | ⟨hp, hr⟩
  · have hload : loadNext (hostAnswer s msg) s = (s.enterPhase .preamble).loadCounted trainingByte :=
      (loadNext_idle hp).trans (loadPreamble_of_lt hlt)
    obtain ⟨t, ht, hphase, hrep⟩ := hs.sends_loaded (by simp [hp]) hload (by simp) rfl
    rw [hs.heldAfter_eq (by simp [hp]) (by simp [hp])] at ht
    exact ⟨t, ht, .inr ⟨hphase, by rw [hrep]; rfl⟩⟩
  · have hload : loadNext (hostAnswer s msg) s = s.loadCounted trainingByte :=
      (loadNext_preamble hp).trans (loadPreamble_of_lt (hr ▸ hlt))
    obtain ⟨t, ht, hphase, hrep⟩ := hs.sends_loaded (by simp [hp]) hload (by simp [hp]) rfl
    rw [hs.heldAfter_eq (by simp [hp]) (by simp [hp])] at ht
    exact ⟨t, ht, .inr ⟨hphase.trans hp, by rw [hrep]; exact toNat_succ_of_lt hr hlt⟩⟩

/-- The preamble, from TX_ENABLE on. -/
theorem State.ByteDue.sends_preamble {s : State} (hs : s.ByteDue) (hp : s.txs = .idle) (msg : List Byte) {k : Nat}
    (hk : k ≤ s.cfg.preambleCount.toNat) :
    ∃ t, s.Sends msg (List.replicate k trainingByte) msg t ∧ t.PreambleSent k := by
  induction k with
  | zero => exact ⟨s, hs.sends_nil msg, .inl ⟨rfl, hp⟩⟩
  | succ k ih =>
    obtain ⟨t, ht, hsent⟩ := ih (by omega)
    obtain ⟨u, hu, hsent'⟩ := hsent.next ht.due (ht.cfg ▸ hk) msg
    rw [List.replicate_succ']
    exact ⟨u, ht.trans hu, hsent'⟩

/-- The sync word, after the last preamble byte. -/
theorem State.ByteDue.sends_sync {s : State} (hs : s.ByteDue) (hdue : s.SyncDue) (msg : List Byte) :
    ∃ t, s.Sends msg [syncByte0, syncByte1] msg t ∧ t.AnswerDue := by
  have hload : loadNext (hostAnswer s msg) s = (s.enterPhase .sync).loadCounted syncByte0 :=
    loadNext_of_syncDue hdue
  obtain ⟨t, ht, hphase, hrep⟩ := hs.sends_loaded hdue.ne_done hload (by simp) rfl
  obtain ⟨hmsg, hsync⟩ : s.txs ≠ .message ∧ s.txs ≠ .sync := by
    rcases hdue with ⟨hp, -⟩ | ⟨hp, -⟩ <;> simp [hp]
  rw [hs.heldAfter_eq hmsg fun hp => absurd hp hsync] at ht
  have hone : t.txRep = 1 := hrep
  have hload' : loadNext (hostAnswer t msg) t = t.loadCounted syncByte1 := by
    rw [loadNext_sync hphase, loadSync_of_lt (by simp [hone]), if_neg (by simp [hone])]
  obtain ⟨u, hu, hphase', hrep'⟩ := ht.due.sends_loaded (by simp [hphase]) hload' (by simp [hphase]) rfl
  rw [ht.due.heldAfter_eq (by simp [hphase]) (by simp [hone])] at hu
  exact ⟨u, ht.trans hu, .inl ⟨hphase'.trans hphase, by simp [hrep', hone]⟩⟩

/-- The message, byte by byte as the host gives it. -/
theorem State.ByteDue.sends_message {s : State} (hs : s.ByteDue) (hdue : s.AnswerDue) (msg : List Byte) :
    ∃ t, s.Sends msg msg [] t ∧ t.AnswerDue := by
  induction msg generalizing s with
  | nil => exact ⟨s, hs.sends_nil [], hdue⟩
  | cons x msg ih =>
    have hfetch := hs.isFetchTick_of_answerDue hdue
    have hanswer : hostAnswer s (x :: msg) = some x := by simp [hostAnswer, hfetch]
    have hheld : heldAfter s (x :: msg) = msg := by simp [heldAfter, hfetch]
    obtain ⟨t, ht, hphase, -⟩ := hs.sends_loaded (msg := x :: msg) hdue.ne_done
      (hanswer ▸ loadNext_of_answerDue_some hdue) (by simp) rfl
    rw [hheld] at ht
    obtain ⟨u, hu, hdue'⟩ := ih ht.due (.inr hphase)
    exact ⟨u, ht.trans hu, hdue'⟩

/-- `k` trailer bytes have been sent, and the host holds no byte of the message any more. -/
def State.TrailerSent (k : Nat) (s : State) : Prop :=
  k = 0 ∧ s.AnswerDue ∨ s.txs = .training ∧ s.txRep.toNat = k

theorem hostAnswer_nil (s : State) : hostAnswer s [] = none := by simp [hostAnswer]

theorem heldAfter_nil (s : State) : heldAfter s [] = [] := by simp [heldAfter]

theorem State.TrailerSent.next {k : Nat} {s : State} (h : s.TrailerSent k) (hs : s.ByteDue)
    (hlt : k < s.cfg.trailerCount.toNat) : ∃ t, s.Sends [] [trainingByte] [] t ∧ t.TrailerSent (k + 1) := by
  rcases h with ⟨rfl, hdue⟩ | ⟨hp, hr⟩
  · have hload : loadNext (hostAnswer s []) s = (s.enterPhase .training).loadCounted trainingByte := by
      rw [hostAnswer_nil, loadNext_of_answerDue_none hdue]
      exact loadTraining_of_lt hlt
    obtain ⟨t, ht, hphase, hrep⟩ := hs.sends_loaded hdue.ne_done hload (by simp) rfl
    rw [heldAfter_nil] at ht
    exact ⟨t, ht, .inr ⟨hphase, by rw [hrep]; rfl⟩⟩
  · have hload : loadNext (hostAnswer s []) s = s.loadCounted trainingByte :=
      (loadNext_training hp).trans (loadTraining_of_lt (hr ▸ hlt))
    obtain ⟨t, ht, hphase, hrep⟩ := hs.sends_loaded (by simp [hp]) hload (by simp [hp]) rfl
    rw [heldAfter_nil] at ht
    exact ⟨t, ht, .inr ⟨hphase.trans hp, by rw [hrep]; exact toNat_succ_of_lt hr hlt⟩⟩

/-- The trailer, after the last message byte. -/
theorem State.ByteDue.sends_trailer {s : State} (hs : s.ByteDue) (hdue : s.AnswerDue) {k : Nat}
    (hk : k ≤ s.cfg.trailerCount.toNat) :
    ∃ t, s.Sends [] (List.replicate k trainingByte) [] t ∧ t.TrailerSent k := by
  induction k with
  | zero => exact ⟨s, hs.sends_nil [], .inl ⟨rfl, hdue⟩⟩
  | succ k ih =>
    obtain ⟨t, ht, hsent⟩ := ih (by omega)
    obtain ⟨u, hu, hsent'⟩ := hsent.next ht.due (ht.cfg ▸ hk)
    rw [List.replicate_succ']
    exact ⟨u, ht.trans hu, hsent'⟩

/-- After the whole trailer a tick finishes the transmission (R188). -/
theorem State.TrailerSent.finishes {s : State} (h : s.TrailerSent s.cfg.trailerCount.toNat) (hs : s.ByteDue) :
    ∃ v, exec (.txTick none) s = .next v ∧ v.up = s.up ++ [.txDone] ∧ v.txs = .done ∧ v.txDone = true ∧
      v.txPin = true ∧ v.txArmed = true := by
  rcases h with ⟨hzero, hdue⟩ | ⟨hp, hr⟩
  · refine ⟨_, execTxTick_of_exhausted hs.unfaulted hs.armed hs.empty hdue.ne_done
      ((loadNext_of_answerDue_none hdue).trans (loadTraining_of_le ?_)) rfl, rfl, rfl, rfl, rfl, hs.armed⟩
    exact hzero.le
  · exact ⟨_, execTxTick_of_exhausted hs.unfaulted hs.armed hs.empty (by simp [hp])
      ((loadNext_training hp).trans (loadTraining_of_le hr.ge)) rfl, rfl, rfl, rfl, rfl, hs.armed⟩

/-- Settles O40: preamble, sync word, message and trailer are sent one after the other, and then nothing is left. -/
theorem transmissionHasItsShape : Obligations.TransmissionHasItsShape := by
  intro s msg hf hr
  have hstart : s.armTransmit.ByteDue := ⟨hf, rfl, rfl⟩
  obtain ⟨s1, h1, hsent1⟩ := hstart.sends_preamble rfl msg le_rfl
  rw [← h1.cfg] at hsent1
  obtain ⟨s2, h2, hdue2⟩ := h1.due.sends_sync hsent1.syncDue msg
  obtain ⟨s3, h3, hdue3⟩ := h2.due.sends_message hdue2 msg
  obtain ⟨u, h4, hsent4⟩ := h3.due.sends_trailer hdue3 le_rfl
  have hall := ((h1.trans h2).trans h3).trans h4
  have hcfg3 : s3.cfg = s.cfg := ((h1.trans h2).trans h3).cfg
  rw [← h4.cfg] at hsent4
  obtain ⟨v, hfinish, hup, hdone⟩ := hsent4.finishes h4.due
  rw [hall.up] at hup
  refine ⟨s.armTransmit, u, v, execTxEnable_arms hf hr, ?_, hall.up, hfinish, hup, hdone⟩
  have hlength : s.cfg.preambleCount.toNat + 2 + msg.length + s.cfg.trailerCount.toNat =
      (transmissionBytes s.cfg msg).length := by
    simp [transmissionBytes]
    omega
  rw [hlength]
  have hticks := hall.ticks
  rw [hcfg3] at hticks
  exact hticks

end Sys2Proof.Machine

/-! ## A transmission is received -/

namespace Sys2Proof.Machine

/-! ### The ideal edges of a byte -/

/-- No displacement: the edges of an ideal transmitter (R78). -/
def ideal (_ : Nat) : Int := 0

theorem ideal_withinThree : WithinThree ideal := fun _ => by simp [ideal]

/-- The edges inside a byte that starts at unit `t`; the start edge is not among them. -/
def innerEdges (c : Config) (t : Nat) (x : Byte) : List Instr :=
  (jitteredEdges c x ideal).map fun e => .edge e.1 (unitStamp c (t + e.2))

theorem edgeOffset_ideal (j : Nat) : edgeOffset ideal j = bitUnits + bitUnits * j := by
  simp only [edgeOffset, ideal, bitUnits]
  omega

/-- An edge stands at each change of the level sequence `f k`, `f (k + 1)`, ... (R78). -/
theorem levelEdges_range' (c : Config) (f : Nat → Bool) (t n k : Nat) :
    levelEdges c (t + bitUnits * k) (f k) ((List.range' k n).map fun i => f (i + 1)) =
      ((List.range' k n).filter fun i => f (i + 1) != f i).map fun i =>
        .edge (f (i + 1)) (unitStamp c (t + bitUnits * i)) := by
  induction n generalizing k with
  | zero => rfl
  | succ n ih =>
    rw [List.range'_succ, List.map_cons, levelEdges, Nat.add_assoc, ← Nat.mul_succ, ih]
    by_cases hsame : f (k + 1) = f k
    · rw [if_pos hsame, List.filter_cons_of_neg (by simp [hsame])]
      rfl
    · rw [if_neg hsame, List.filter_cons_of_pos (by simp [hsame])]
      rfl

theorem waveEdges_eq_cons (c : Config) (t : Nat) (x : Byte) :
    waveEdges c true t x = .edge false (unitStamp c t) :: innerEdges c t x := by
  have hinner : innerEdges c t x =
      levelEdges c (t + bitUnits) (frameBit c x 0) ((List.range 9).map fun i => frameBit c x (i + 1)) := by
    have hlevels := levelEdges_range' c (frameBit c x) (t + bitUnits) 9 0
    rw [← List.range_eq_range', Nat.mul_zero, Nat.add_zero] at hlevels
    rw [hlevels, innerEdges, jitteredEdges_eq, List.map_map]
    refine List.map_congr_left fun j _ => ?_
    simp only [Function.comp_apply, edgeOffset_ideal, Nat.add_assoc]
  rw [hinner]
  rfl

theorem receiveEvents_cons (c : Config) (t : Nat) (x : Byte) (xs : List Byte) :
    receiveEvents c t (x :: xs) =
      .edge false (unitStamp c t) :: .decode :: (innerEdges c t x ++ receiveEvents c (t + 130) xs) := by
  rw [receiveEvents, waveEdges_eq_cons]
  rfl

/-- A time in units as an offset from another one (R78, R265). -/
theorem offsetStamp_unitStamp {c : Config} (h : c.wf = true) (t o : Nat) :
    offsetStamp c (unitStamp c t) o = unitStamp c (t + o) := by
  have ht : (unitStamp c t).toNat = (t <<< c.clockShift) % 2 ^ c.width := toNat_stamp_mod h _
  rw [offsetStamp, ht, unitStamp, Nat.mod_add_mod]
  simp only [Nat.shiftLeft_eq, Nat.add_mul]

theorem Measures.unitStamp_lt {c : Config} (h : Measures c) (t : Nat) : (unitStamp c t).toNat < 2 ^ c.width :=
  (toNat_stamp_mod h.wf _).trans_lt (Nat.mod_lt _ (Nat.two_pow_pos _))

/-- A gap in units is measured as it is, up to 255 (R101, R265). -/
theorem Measures.interval_unitStamp {c : Config} (h : Measures c) (t : Nat) {o : Nat} (ho : o ≤ 255) :
    interval c (unitStamp c t) (sampleNow c (unitStamp c (t + o))) = BitVec.ofNat 8 o := by
  rw [← offsetStamp_unitStamp h.wf]
  exact h.interval_offsetStamp (h.unitStamp_lt t) ho

theorem Measures.sampleNow_unitStamp {c : Config} (h : Measures c) (t : Nat) :
    sampleNow c (unitStamp c t) = unitStamp c t :=
  sampleNow_of_lt (h.unitStamp_lt t)

theorem innerEdges_eq_offsetEdge {c : Config} (h : c.wf = true) (t : Nat) (x : Byte) :
    innerEdges c t x = (jitteredEdges c x ideal).map (offsetEdge c (unitStamp c t)) := by
  refine List.map_congr_left fun e _ => ?_
  rw [offsetEdge_eq, offsetStamp_unitStamp h]

/-! ### Searching for a sync word -/

/-- Armed before a frame, in Idle, High or Low, with no request; in High the last edge was at unit `u`. -/
structure State.SearchesFrom (c : Config) (u : Nat) (s : State) : Prop where
  cfg : s.cfg = c
  unfaulted : s.fault = false
  armed : s.rxArmed = true
  unrequested : s.decodePending = false
  searching : s.rxs = .idle ∨ s.rxs = .high ∨ s.rxs = .low
  last : s.rxs = .high → s.time0 = unitStamp c u

/-- The same, where a falling edge at unit `t` would end a short high run. -/
def State.SearchesBefore (c : Config) (t : Nat) (s : State) : Prop :=
  ∃ u, u ≤ t ∧ t < u + 117 ∧ s.SearchesFrom c u

section
variable {c : Config} {s : State} {t : Nat}

theorem State.ScannedTo.searchesFrom {s' : State} {r : RxState} (h : s.ScannedTo s' r (unitStamp c t))
    (hcfg : s.cfg = c) (hf : s.fault = false) (ha : s.rxArmed = true) (hp : s.decodePending = false)
    (hr : r = .idle ∨ r = .high ∨ r = .low) : s'.SearchesFrom c t where
  cfg := h.cfg.trans hcfg
  unfaulted := h.fault.trans hf
  armed := h.rxArmed.trans ha
  unrequested := h.decodePending.trans hp
  searching := by rwa [h.rxs]
  last _ := h.time0

/-- A short high run keeps the receiver searching, from Idle too (41_sync_detector.md, the second claim). -/
theorem State.SearchesBefore.edge (h : s.SearchesBefore c t) (hc : Measures c) (l : Bool) :
    ∃ s', exec (.edge l (unitStamp c t)) s = .next s' ∧ s'.SearchesFrom c t ∧ s'.up = s.up := by
  obtain ⟨u, hle, hlt, hcfg, hf, ha, hp, hr, hlast⟩ := h
  have hnow : sampleNow s.cfg (unitStamp c t) = unitStamp c t := by rw [hcfg, hc.sampleNow_unitStamp]
  have hscan : ∃ s' r, exec (.edge l (unitStamp c t)) s = .next s' ∧
      s.ScannedTo s' r (sampleNow s.cfg (unitStamp c t)) ∧ (r = .idle ∨ r = .high ∨ r = .low) := by
    cases l with
    | true =>
      obtain ⟨s', hexec, hs'⟩ := exec_rising_of_searching hf ha hr (unitStamp c t)
      exact ⟨s', _, hexec, hs', .inr (.inl rfl)⟩
    | false =>
      rcases hr with hr | hr | hr
      · obtain ⟨s', hexec, hs'⟩ := exec_falling_of_idle hf ha hr (unitStamp c t)
        exact ⟨s', _, hexec, hs', .inl rfl⟩
      · have hshort : (s.intervalAt (unitStamp c t)).toNat < 117 := by
          obtain ⟨o, rfl⟩ := Nat.exists_eq_add_of_le hle
          rw [State.intervalAt, hcfg, hlast hr, hc.interval_unitStamp u (by omega), BitVec.toNat_ofNat,
            Nat.mod_eq_of_lt (by omega)]
          omega
        obtain ⟨s', hexec, hs'⟩ := exec_falling_of_shortHigh hf ha hr hshort
        exact ⟨s', _, hexec, hs', .inr (.inr rfl)⟩
      · obtain ⟨s', hexec, hs'⟩ := exec_falling_of_low hf ha hr (unitStamp c t)
        exact ⟨s', _, hexec, hs', .inr (.inr rfl)⟩
  obtain ⟨s', r, hexec, hs', hto⟩ := hscan
  rw [hnow] at hs'
  exact ⟨s', hexec, hs'.searchesFrom hcfg hf ha hp hto, hs'.up⟩

/-- The next edge comes after a gap in which no high run can be long. -/
def ShortGap (a b : Nat) : Prop := a ≤ b ∧ b < a + 117

/-- Edges with short gaps keep the receiver searching. -/
theorem State.SearchesFrom.run (hc : Measures c) {es : List (Bool × Nat)} {a b : Nat}
    (h : s.SearchesFrom c (t + a)) (hgaps : List.IsChain ShortGap (a :: es.map Prod.snd ++ [b])) :
    ∃ s', runEvents (es.map fun e => .edge e.1 (unitStamp c (t + e.2))) s = .next s' ∧
      s'.SearchesBefore c (t + b) ∧ s'.up = s.up := by
  induction es generalizing s a with
  | nil =>
    obtain ⟨⟨hle, hlt⟩, -⟩ := List.isChain_cons_cons.1 hgaps
    exact ⟨s, rfl, ⟨t + a, by omega, by omega, h⟩, rfl⟩
  | cons e es ih =>
    obtain ⟨⟨hle, hlt⟩, hrest⟩ := List.isChain_cons_cons.1 hgaps
    have hbefore : s.SearchesBefore c (t + e.2) := ⟨t + a, by omega, by omega, h⟩
    obtain ⟨v, hexec, hv, hup⟩ := hbefore.edge hc e.1
    obtain ⟨s', hrun, hs', hup'⟩ := ih hv hrest
    exact ⟨s', (runEvents_cons_of_next hexec).trans hrun, hs', hup'.trans hup⟩

/-- The edges of a training byte have short gaps, up to the next byte's start edge, in either bit order. -/
theorem trainingByte_gaps (c : Config) :
    List.IsChain ShortGap (0 :: (jitteredEdges c trainingByte ideal).map Prod.snd ++ [130]) := by
  obtain ⟨_, _, bitOrder, _, _, _⟩ := c
  cases bitOrder with
  | lsbFirst =>
    show List.IsChain ShortGap [0, 26, 39, 52, 65, 78, 91, 104, 130]
    simp [ShortGap]
  | msbFirst =>
    show List.IsChain ShortGap [0, 13, 26, 39, 52, 65, 78, 91, 104, 117, 130]
    simp [ShortGap]

/-- A DECODE without a request is passed over (R160). -/
theorem runEvents_decode_unrequested {is : List Instr} (h : s.decodePending = false) :
    runEvents (.decode :: is) s = runEvents is s :=
  runEvents_cons_of_next (execDecode_unrequested h)

/-- A training byte on the wire leaves the receiver searching. -/
theorem State.SearchesBefore.afterTrainingByte (h : s.SearchesBefore c t) (hc : Measures c) (xs : List Byte) :
    ∃ s', runEvents (receiveEvents c t (trainingByte :: xs)) s = runEvents (receiveEvents c (t + 130) xs) s' ∧
      s'.SearchesBefore c (t + 130) ∧ s'.up = s.up := by
  obtain ⟨s1, hexec, h1, hup1⟩ := h.edge hc false
  obtain ⟨s2, hrun, h2, hup2⟩ := State.SearchesFrom.run (t := t) (a := 0) hc h1 (trainingByte_gaps c)
  refine ⟨s2, ?_, h2, hup2.trans hup1⟩
  rw [receiveEvents_cons, runEvents_cons_of_next hexec, runEvents_decode_unrequested h1.unrequested]
  exact runEvents_append_of_next hrun

/-- The preamble leaves the receiver searching. -/
theorem State.SearchesBefore.afterPreamble (hc : Measures c) (n : Nat) (h : s.SearchesBefore c t) (xs : List Byte) :
    ∃ s', runEvents (receiveEvents c t (List.replicate n trainingByte ++ xs)) s =
        runEvents (receiveEvents c (t + 130 * n) xs) s' ∧
      s'.SearchesBefore c (t + 130 * n) ∧ s'.up = s.up := by
  induction n generalizing s t with
  | zero => exact ⟨s, rfl, h, rfl⟩
  | succ n ih =>
    obtain ⟨s1, hrun, h1, hup⟩ := h.afterTrainingByte hc (List.replicate n trainingByte ++ xs)
    obtain ⟨s2, hrun', h2, hup'⟩ := ih h1
    have htime : t + 130 + 130 * n = t + 130 * (n + 1) := by omega
    rw [htime] at hrun' h2
    exact ⟨s2, hrun.trans hrun', h2, hup'.trans hup⟩

end

/-! ### The sync word -/

theorem innerEdges_syncByte0 (c : Config) (t : Nat) :
    innerEdges c t syncByte0 = [.edge true (unitStamp c (t + 13))] := by
  obtain ⟨_, _, bitOrder, _, _, _⟩ := c
  cases bitOrder <;> rfl

theorem innerEdges_syncByte1 (c : Config) (t : Nat) :
    innerEdges c t syncByte1 = [.edge true (unitStamp c (t + 117))] := by
  obtain ⟨_, _, bitOrder, _, _, _⟩ := c
  cases bitOrder <;> rfl

/-- What is left of a transmission's events at the start edge of the first of `xs`, which is at unit `t`, once that
edge has been processed. -/
def frameEvents (c : Config) (t : Nat) : List Byte → List Instr
  | [] => []
  | x :: xs => innerEdges c t x ++ receiveEvents c (t + 130) xs

/-- The gatherer is at the start edge of a byte, which is at unit `t`, and has not seen the end marker. -/
structure State.Receives (c : Config) (t : Nat) (s : State) : Prop where
  atStart : s.AtByteStart
  cfg : s.cfg = c
  time0 : s.time0 = unitStamp c t
  unmarked : s.endSeen = false

section
variable {c : Config} {s : State} {t : Nat}

/-- The first sync byte leaves the receiver in High since its only rising edge. -/
theorem State.SearchesBefore.afterSyncByte0 (h : s.SearchesBefore c t) (hc : Measures c) (xs : List Byte) :
    ∃ s', runEvents (receiveEvents c t (syncByte0 :: xs)) s = runEvents (receiveEvents c (t + 130) xs) s' ∧
      s'.SearchesFrom c (t + 13) ∧ s'.rxs = .high ∧ s'.up = s.up := by
  obtain ⟨s1, hedge1, ⟨hcfg, hf, ha, hp, hr, -⟩, hup⟩ := h.edge hc false
  obtain ⟨s2, hedge2, h2⟩ := exec_rising_of_searching hf ha hr (unitStamp c (t + 13))
  rw [hcfg, hc.sampleNow_unitStamp] at h2
  refine ⟨s2, ?_, h2.searchesFrom hcfg hf ha hp (.inr (.inl rfl)), h2.rxs, h2.up.trans hup⟩
  rw [receiveEvents_cons, runEvents_cons_of_next hedge1, runEvents_decode_unrequested hp, innerEdges_syncByte0,
    List.singleton_append, runEvents_cons_of_next hedge2]

/-- After a high run of 117 units the second sync byte and the next start edge start the frame. -/
theorem State.SearchesFrom.afterSyncByte1 (h : s.SearchesFrom c t) (hr : s.rxs = .high) (hc : Measures c) (x : Byte)
    (xs : List Byte) :
    ∃ s', runEvents (receiveEvents c (t + 117) (syncByte1 :: x :: xs)) s =
        runEvents (frameEvents c (t + 247) (x :: xs)) s' ∧
      s'.Receives c (t + 247) ∧ s'.up = s.up ++ [.frameStart] := by
  obtain ⟨hcfg, hf, ha, hp, -, hlast⟩ := h
  have hhigh : (s.intervalAt (unitStamp c (t + 117))).toNat = 117 := by
    rw [State.intervalAt, hcfg, hlast hr, hc.interval_unitStamp t (by decide)]
    rfl
  obtain ⟨s1, hedge1, h1⟩ := exec_falling_of_longHigh hf ha hr hhigh.ge
  rw [hcfg, hc.sampleNow_unitStamp] at h1
  have hlow : (s1.intervalAt (unitStamp c (t + 117 + 117))).toNat = 117 := by
    rw [h1.intervalAt, hcfg, hc.interval_unitStamp (t + 117) (by decide)]
    rfl
  obtain ⟨s2, hedge2, h12⟩ :=
    exec_rising_of_longLow (h1.fault.trans hf) (h1.rxArmed.trans ha) h1.rxs hlow.ge (by omega)
  have h2 := h1.trans h12
  obtain ⟨s3, hedge3, h23⟩ :=
    exec_falling_of_waitStop (h2.fault.trans hf) (h2.rxArmed.trans ha) h2.rxs (unitStamp c (t + 247))
  have h3 := h2.frameStarted h23
  have hcfg3 : s3.cfg = c := h3.cfg.trans hcfg
  have htime : s3.time0 = unitStamp c (t + 247) := by rw [h3.time0, hcfg, hc.sampleNow_unitStamp]
  refine ⟨s3, ?_, ⟨⟨hcfg3 ▸ hc, ?_, h3.fault.trans hf, h3.rxArmed.trans ha, h3.rxs, h3.decodePending.trans hp,
    h3.empty⟩, hcfg3, htime, h3.endSeen⟩, h3.up⟩
  · rw [receiveEvents_cons, runEvents_cons_of_next hedge1, runEvents_decode_unrequested (h1.decodePending.trans hp),
      innerEdges_syncByte1, List.singleton_append, runEvents_cons_of_next hedge2, receiveEvents_cons,
      runEvents_cons_of_next hedge3, runEvents_decode_unrequested (h3.decodePending.trans hp), frameEvents]
  · rw [htime, hcfg3]
    exact hc.unitStamp_lt _

/-- A searching receiver starts its frame at the first edge after the sync word. -/
theorem State.SearchesBefore.afterSyncWord (h : s.SearchesBefore c t) (hc : Measures c) (x : Byte) (xs : List Byte) :
    ∃ s', runEvents (receiveEvents c t (syncByte0 :: syncByte1 :: x :: xs)) s =
        runEvents (frameEvents c (t + 260) (x :: xs)) s' ∧
      s'.Receives c (t + 260) ∧ s'.up = s.up ++ [.frameStart] := by
  obtain ⟨s1, hrun1, h1, hr, hup1⟩ := h.afterSyncByte0 hc (syncByte1 :: x :: xs)
  obtain ⟨s2, hrun2, h2, hup2⟩ := h1.afterSyncByte1 hr hc x xs
  exact ⟨s2, hrun1.trans hrun2, h2, by rw [hup2, hup1]⟩

end

/-! ### The bytes of the frame -/

section
variable {c : Config} {s : State} {t : Nat}

/-- A byte that another one follows is delivered at the start edge of that one. -/
theorem State.Receives.byte (h : s.Receives c t) (x y : Byte) (ys : List Byte) :
    ∃ s', runEvents (frameEvents c t (x :: y :: ys)) s = runEvents (frameEvents c (t + 130) (y :: ys)) s' ∧
      s.Delivered x 130 s' ∧ s'.time0 = unitStamp c (t + 130) := by
  obtain ⟨hs, hcfg, htime, hseen⟩ := h
  have hwf : c.wf = true := hcfg ▸ hs.measures.wf
  obtain ⟨s', hrun, hs'⟩ := hs.receive hseen x ideal_withinThree (boundary := 130) (by decide) (by decide)
  have hevents : frameEvents c t (x :: y :: ys) =
      ((jitteredEdges c x ideal ++ [(false, 130)]).map (offsetEdge c (unitStamp c t)) ++ [.decode]) ++
        frameEvents c (t + 130) (y :: ys) := by
    rw [frameEvents, receiveEvents_cons, innerEdges_eq_offsetEdge hwf, List.map_append, List.map_singleton,
      offsetEdge_eq, offsetStamp_unitStamp hwf, frameEvents]
    simp
  rw [hcfg, htime] at hrun
  refine ⟨s', ?_, hs', ?_⟩
  · rw [hevents, runEvents_append_of_next hrun]
  · rw [hs'.time0, hcfg, htime, offsetStamp_unitStamp hwf]

/-- Bytes that are not the end marker are delivered one after the other. -/
theorem State.Receives.bytes {xs : List Byte} (h : s.Receives c t) (hmark : ∀ x ∈ xs, c.endMarker ≠ some x)
    (y : Byte) (ys : List Byte) :
    ∃ s', runEvents (frameEvents c t (xs ++ y :: ys)) s =
        runEvents (frameEvents c (t + 130 * xs.length) (y :: ys)) s' ∧
      s'.Receives c (t + 130 * xs.length) ∧ s'.up = s.up ++ xs.map .data := by
  induction xs generalizing s t with
  | nil => exact ⟨s, rfl, h, (List.append_nil _).symm⟩
  | cons x xs ih =>
    obtain ⟨z, zs, hz⟩ : ∃ z zs, xs ++ y :: ys = z :: zs := List.exists_cons_of_ne_nil (by simp)
    obtain ⟨s1, hrun, h1, htime⟩ := h.byte x z zs
    have hunmarked : s1.endSeen = false := by
      rw [h1.endSeen, h.cfg]
      exact decide_eq_false (hmark x List.mem_cons_self)
    obtain ⟨s', hrun', h', hup⟩ := ih ⟨h1.atStart, h1.cfg.trans h.cfg, htime, hunmarked⟩
      fun z hz => hmark z (List.mem_cons_of_mem x hz)
    have hlength : t + 130 + 130 * xs.length = t + 130 * (x :: xs).length := by
      rw [List.length_cons]
      omega
    rw [hlength] at hrun' h'
    refine ⟨s', ?_, h', ?_⟩
    · rw [List.cons_append, hz, hrun, ← hz, hrun']
    · rw [hup, h1.up, List.map_cons, List.append_assoc]
      rfl

/-- The edges inside the last byte are gathered, and the frame stays open. -/
theorem State.Receives.lastByte (h : s.Receives c t) (x : Byte) :
    ∃ s', runEvents (frameEvents c t [x]) s = .next s' ∧ s'.up = s.up ∧ s'.rxs = .gathering := by
  obtain ⟨hs, hcfg, htime, hseen⟩ := h
  obtain ⟨s', hrun, hs'⟩ := hs.gather hseen (es := jitteredEdges s.cfg x ideal)
    (fun _ he => jitteredEdges_offset_lt ideal_withinThree he) ((length_jitteredEdges_le _ _ _).trans (by decide))
  refine ⟨s', ?_, hs'.up, hs'.rxs.trans hs.gathering⟩
  rw [frameEvents, receiveEvents, List.append_nil, innerEdges_eq_offsetEdge (hcfg ▸ hs.measures.wf)]
  rwa [hcfg, htime] at hrun

/-! ### The end of the frame -/

/-- An EDGE or a DECODE: the events of a receiver on the wire. -/
def OnTheWire (i : Instr) : Prop := (∃ l ts, i = .edge l ts) ∨ i = .decode

/-- A frame that has ended takes no notice of the rest of the transmission (R150). -/
theorem runEvents_of_requestDropped {is : List Instr} (his : ∀ i ∈ is, OnTheWire i)
    (h : s.RequestDropped) : runEvents is s = .next s := by
  obtain ⟨hdisarmed, hnone⟩ := h
  induction is with
  | nil => rfl
  | cons i is ih =>
    have hmasked : exec i s = .next s := by
      rcases his i List.mem_cons_self with ⟨l, ts, rfl⟩ | rfl
      · exact execEdge_masked hdisarmed l ts
      · exact execDecode_unrequested hnone
    exact (runEvents_cons_of_next hmasked).trans (ih fun j hj => his j (List.mem_cons_of_mem i hj))

theorem edges_onTheWire (es : List (Bool × Nat)) :
    ∀ i ∈ es.map fun e => Instr.edge e.1 (unitStamp c (t + e.2)), OnTheWire i := by
  intro i hi
  obtain ⟨e, -, rfl⟩ := List.mem_map.1 hi
  exact .inl ⟨_, _, rfl⟩

theorem receiveEvents_onTheWire (xs : List Byte) : ∀ i ∈ receiveEvents c t xs, OnTheWire i := by
  induction xs generalizing t with
  | nil => simp [receiveEvents]
  | cons x xs ih =>
    intro i hi
    rw [receiveEvents_cons] at hi
    rcases List.mem_cons.1 hi with rfl | hi
    · exact .inl ⟨_, _, rfl⟩
    rcases List.mem_cons.1 hi with rfl | hi
    · exact .inr rfl
    rcases List.mem_append.1 hi with hi | hi
    · exact edges_onTheWire _ i hi
    · exact ih i hi

/-- After the end marker's DECODE the first edge inside the next byte ends the frame (R147). -/
theorem State.AtByteStart.endsFrame (hs : s.AtByteStart) (hseen : s.endSeen = true) (hcfg : s.cfg = c)
    (htime : s.time0 = unitStamp c t) (xs : List Byte) :
    ∃ s', runEvents (frameEvents c t (trainingByte :: xs)) s = .next s' ∧
      s'.up = s.up ++ [.frameEnd .endMarker] ∧ s'.rxs = .done := by
  have hwf : c.wf = true := hcfg ▸ hs.measures.wf
  have hnonempty : ∃ e es, jitteredEdges c trainingByte ideal = e :: es := by
    obtain ⟨_, _, bitOrder, _, _, _⟩ := c
    cases bitOrder <;> exact ⟨_, _, rfl⟩
  obtain ⟨e, es, hedges⟩ := hnonempty
  have hlt : e.2 < 130 := jitteredEdges_offset_lt ideal_withinThree (hedges ▸ List.mem_cons_self)
  have hiv : (s.intervalAt (unitStamp c (t + e.2))).toNat = e.2 := by
    have hmeasured := (hcfg ▸ hs.measures : Measures c).interval_unitStamp t (o := e.2) (by omega)
    rw [State.intervalAt, hcfg, htime, hmeasured, BitVec.toNat_ofNat, Nat.mod_eq_of_lt (by omega)]
  have hend := endMarkerGuardEndsFrame e.1 (unitStamp c (t + e.2)) s hs.unfaulted hs.armed hs.gathering hseen
    (hiv.trans_le (by omega)) (.inl (hiv.trans_lt hlt))
  have hrest : ∀ i ∈ (es.map fun e => Instr.edge e.1 (unitStamp c (t + e.2))) ++ receiveEvents c (t + 130) xs,
      OnTheWire i := fun i hi =>
    (List.mem_append.1 hi).elim (edges_onTheWire es i) (receiveEvents_onTheWire xs i)
  refine ⟨s.terminate .endMarker, ?_, rfl, rfl⟩
  rw [frameEvents, innerEdges, hedges, List.map_cons, List.cons_append, runEvents_cons_of_next hend]
  exact runEvents_of_requestDropped hrest ⟨rfl, rfl⟩

end

/-! ### The whole transmission -/

/-- A receiver that is enabled before the transmission starts its frame after the sync word and delivers the bytes
up to the one that is looked at next. -/
theorem receives_of_transmission {s : State} (hc : Measures s.cfg) (hf : s.fault = false) (htx : s.txArmed = false)
    (start : Nat) {xs : List Byte} (hmark : ∀ x ∈ xs, s.cfg.endMarker ≠ some x) (y : Byte) (ys : List Byte) :
    ∃ s' t, runEvents (.rxEnable :: receiveEvents s.cfg start
          (List.replicate s.cfg.preambleCount.toNat trainingByte ++ [syncByte0, syncByte1] ++ (xs ++ y :: ys))) s =
        runEvents (frameEvents s.cfg t (y :: ys)) s' ∧
      s'.Receives s.cfg t ∧ s'.up = s.up ++ [.frameStart] ++ xs.map .data := by
  have henable : exec .rxEnable s = .next s.armReceive := execRxEnable_arms hf htx
  have harmed : s.armReceive.SearchesBefore s.cfg start :=
    ⟨start, le_rfl, by omega, rfl, hf, rfl, rfl, .inl rfl, fun h => by simp at h⟩
  obtain ⟨s1, hrun1, h1, hup1⟩ :=
    harmed.afterPreamble hc s.cfg.preambleCount.toNat ([syncByte0, syncByte1] ++ (xs ++ y :: ys))
  obtain ⟨z, zs, hz⟩ : ∃ z zs, xs ++ y :: ys = z :: zs := List.exists_cons_of_ne_nil (by simp)
  obtain ⟨s2, hrun2, h2, hup2⟩ := h1.afterSyncWord hc z zs
  rw [← hz] at hrun2
  obtain ⟨s3, hrun3, h3, hup3⟩ := h2.bytes hmark y ys
  refine ⟨s3, _, ?_, h3, ?_⟩
  · rw [runEvents_cons_of_next henable, List.append_assoc]
    exact (hrun1.trans hrun2).trans hrun3
  · rw [hup3, hup2, hup1, State.armReceive_up]

/-- Settles O41: the preamble leaves the receiver searching, the sync word starts the frame, and each byte is
delivered at the next one's start edge, until the end marker has been seen. -/
theorem transmissionIsReceived : Obligations.TransmissionIsReceived := by
  intro s msg start hwf hclamp hf htx htrailer
  have hc : Measures s.cfg := ⟨hwf, hclamp⟩
  obtain ⟨n, hn⟩ : ∃ n, s.cfg.trailerCount.toNat = n + 1 := Nat.exists_eq_add_of_le' htrailer
  refine ⟨fun v body hmarker hmsg hbody => ?marked, fun htraining hmsg => ?unmarked⟩
  case marked =>
    have hbytes : transmissionBytes s.cfg msg =
        List.replicate s.cfg.preambleCount.toNat trainingByte ++ [syncByte0, syncByte1] ++
          (body ++ v :: trainingByte :: List.replicate n trainingByte) := by
      simp [transmissionBytes, hmsg, hn, List.replicate_succ]
    have hmark : ∀ x ∈ body, s.cfg.endMarker ≠ some x := by
      rintro x hx heq
      cases hmarker.symm.trans heq
      exact hbody hx
    obtain ⟨s1, t, hrun1, h1, hup1⟩ := receives_of_transmission hc hf htx start hmark v
      (trainingByte :: List.replicate n trainingByte)
    obtain ⟨s2, hrun2, h2, htime2⟩ := h1.byte v trainingByte (List.replicate n trainingByte)
    have hseen : s2.endSeen = true := by
      rw [h2.endSeen, h1.cfg]
      exact decide_eq_true hmarker
    obtain ⟨s3, hrun3, hup3, hdone⟩ := h2.atStart.endsFrame hseen (h2.cfg.trans h1.cfg) htime2 _
    refine ⟨s3, ?_, ?_, hdone⟩
    · rw [hbytes, hrun1, hrun2, hrun3]
    · rw [hup3, h2.up, hup1, hmsg, List.map_append, List.map_singleton]
      simp only [List.append_assoc]
  case unmarked =>
    have hbytes : transmissionBytes s.cfg msg =
        List.replicate s.cfg.preambleCount.toNat trainingByte ++ [syncByte0, syncByte1] ++
          ((msg ++ List.replicate n trainingByte) ++ [trainingByte]) := by
      simp [transmissionBytes, hn, List.replicate_succ']
    have hmark : ∀ x ∈ msg ++ List.replicate n trainingByte, s.cfg.endMarker ≠ some x := by
      intro x hx
      rcases List.mem_append.1 hx with hx | hx
      · exact hmsg x hx
      · rw [List.eq_of_mem_replicate hx]
        exact htraining
    obtain ⟨s1, t, hrun1, h1, hup1⟩ := receives_of_transmission hc hf htx start hmark trainingByte []
    obtain ⟨s2, hrun2, hup2, hopen⟩ := h1.lastByte trainingByte
    refine ⟨s2, ?_, ?_, hopen⟩
    · rw [hbytes, hrun1, hrun2]
    · rw [hup2, hup1, List.map_append, List.map_replicate, hn, Nat.add_sub_cancel, List.append_assoc]
      simp only [List.append_assoc]
      rfl

end Sys2Proof.Machine
